-- ==== Sys2Proof/Word.lean ====
section
/-! DEFINITION. The word types of the block (spec/00_scope.md R5, R6, R7): widths and lengths only. -/

namespace Sys2Proof

/-- A byte, R7. -/
abbrev Byte := BitVec 8

/-- `u16`, a result register, R33. -/
abbrev Half := BitVec 16

/-- `ARG_W` = 32 bits, two's complement where it is read as a number (`BitVec.toInt`), R5 and R7. -/
abbrev Word := BitVec 32

/-- `TIME_W` = 64 bits, opaque to the block, R5 and R36. -/
abbrev Time := BitVec 64

/-- A 17-byte command body: bytes 0 to 16 of a command frame, R89. -/
abbrev Body := Vector Byte 17

/-- A command frame, `CMD_LEN` = 19 bytes, R6 and R80. -/
abbrev CommandFrame := Vector Byte 19

/-- The capture buffer, `RSP_LEN` = 10 bytes, R6 and R25. -/
abbrev Capture := Vector Byte 10

end Sys2Proof
end

