-- ==== Sys2Proof/Syntax.lean ====
section
/-! DEFINITION. The nine host operations of spec/opcode_table.json and the request that carries one. -/

namespace Sys2Proof

/-- A host operation (30_encoding.md R90), one constructor per row of the opcode table, with the argument
`req_arg[31:0]` of the request. The six operations that ignore their argument still latch it into `ARG` (R91),
so they carry it too. -/
inductive Instr where
  /-- `GET_FIRMWARE`, 0x0, R192. -/
  | getFirmware (arg : Word)
  /-- `GET_WORK_MODE`, 0x1, R193. -/
  | getWorkMode (arg : Word)
  /-- `SET_WORK_MODE`, 0x2, R194. -/
  | setWorkMode (arg : Word)
  /-- `GET_REPORTING_MODE`, 0x3, R195. -/
  | getReportingMode (arg : Word)
  /-- `SET_REPORTING_MODE`, 0x4, R196. -/
  | setReportingMode (arg : Word)
  /-- `GET_WORK_PERIOD`, 0x5, R197. -/
  | getWorkPeriod (arg : Word)
  /-- `SET_WORK_PERIOD`, 0x6, R198. -/
  | setWorkPeriod (arg : Word)
  /-- `QUERY_DATA`, 0x7, R199. -/
  | queryData (arg : Word)
  /-- `WAIT_FOR_DATA`, 0x8, R200. -/
  | waitForData (arg : Word)
  deriving DecidableEq, Repr

/-- A request on the host port: `req_op[3:0]` and `req_arg[31:0]` while `req_valid = 1` (10_state.md R35). -/
structure Request where
  op : BitVec 4
  arg : Word
  deriving DecidableEq, Repr

end Sys2Proof
end

