-- ==== Sys2Proof/Machine/Ports.lean ====
section
/-! DEFINITION. The input ports of the block (10_state.md R27, R28, R35 to R38), and what the environment does in one
cycle to drive them. A payload whose valid bit is 0 is never read by any rule, so a valid bit and its payload
are one `Option` (DESIGN CHOICE, notes/assumptions/13.md). -/

namespace Sys2Proof.Machine

/-- The channel's answer to a write, `tx_resp = 1` (R27): `ioerr` is `tx_ioerr`, `count` is `tx_count`. -/
structure WriteAnswer where
  ioerr : Bool
  count : BitVec 8
  deriving DecidableEq, Repr

/-- What the host and the channel do in one clock cycle. All of it is free (60_exceptions.md R262). -/
structure Drive where
  /-- `rst`, R37. -/
  rst : Bool
  /-- `req_valid` with `req_op` and `req_arg`, R35. -/
  req : Option Request
  /-- `csr_addr`, R38. -/
  csrAddr : BitVec 5
  /-- `time_in`, R36. -/
  timeIn : Time
  /-- The answer the channel gives if a write is unanswered, R27 and R156. -/
  answer : Option WriteAnswer
  /-- Bytes the peripheral's side adds to the channel's inbound queue at the start of the cycle, R44. -/
  arrive : List Byte
  /-- Whether the channel offers the head of its inbound queue in this cycle, R28. -/
  offer : Bool
  /-- `rx_err`, R28. -/
  rxErr : Bool
  deriving DecidableEq, Repr, Inhabited

/-- The input pins as the block sees them in one cycle. -/
structure Pins where
  rst : Bool
  req : Option Request
  csrAddr : BitVec 5
  timeIn : Time
  /-- `tx_resp` with its payload, R27. -/
  tx : Option WriteAnswer
  /-- `rx_valid` with `rx_byte`, R28. -/
  rx : Option Byte
  rxErr : Bool
  deriving DecidableEq, Repr

end Sys2Proof.Machine
end

