-- ==== Sys2Proof/Config.lean ====
section
/-! DEFINITION. The parameters of 00_scope.md R5, and the free values: constants without a body, so that nothing in Lean
can say what they are. -/

namespace Sys2Proof

/-- `RX_IDLE_POLICY`, R5 and 42_transaction.md R153. -/
inductive RxIdlePolicy where
  | hold
  | drop
  deriving DecidableEq, Repr

/-- The parameters that vary from block to block (R5). The widths `TIMER_W` = 32, `ARG_W` = 32 and `TIME_W` = 64 are
fixed at the values R5 gives, in the types of the registers. -/
structure Config where
  /-- `CLK_HZ`: OPEN in the spec. Only `timeoutCycles` depends on it. -/
  clkHz : Nat
  /-- `TIMEOUT_CYCLES`: `5 * CLK_HZ`, or an argument of the model (R5). -/
  timeoutCycles : Nat
  rxIdlePolicy : RxIdlePolicy
  deriving DecidableEq, Repr

/-- The block clocked at `clkHz` with the source's window of 5 seconds, R5 and R293. -/
def Config.ofClock (clkHz : Nat) (policy : RxIdlePolicy) : Config :=
  { clkHz, timeoutCycles := 5 * clkHz, rxIdlePolicy := policy }

/-- FREE VALUE: stands for the clock frequency the spec leaves OPEN (notes/assumptions/1.md). -/
opaque Config.freeClock : Nat

/-- FREE VALUE: what host and channel do in the cycle of that number, once the schedule in the state is used up
(60_exceptions.md R262, notes/assumptions/3.md). -/
opaque Config.freeDrive : Nat → Machine.Drive

/-- The configuration of `State.reset`: an arbitrary clock, held to the frequencies R5 allows
(`0 < CLK_HZ` and `5 * CLK_HZ < 2^32`; each of them is reached by some value of the free constant), and the default
policy `Hold`. DESIGN CHOICE, notes/assumptions/1.md and 2.md. -/
def Config.atReset : Config :=
  Config.ofClock (Config.freeClock % 858993459 + 1) .hold

end Sys2Proof
end

