-- ==== Sys2Proof/WellFormed.lean ====
section
/-! DEFINITION. The checks on requests, on operations to be written as text and on configurations. `Instr` itself needs no
check: its one operand has the width of the port, and every value of it can be encoded (30_encoding.md R91). -/

namespace Sys2Proof

/-- A request names an operation: `req_op` is one of 0x0 to 0x8, not a reserved code (30_encoding.md R90, R92). -/
def Request.wf (r : Request) : Bool := decide (r.op.toNat ≤ 8)

/-- The three set operations use their argument; the other six ignore it (30_encoding.md R91). -/
def Instr.usesArg : Instr → Bool
  | .setWorkMode _ | .setReportingMode _ | .setWorkPeriod _ => true
  | .getFirmware _ | .getWorkMode _ | .getReportingMode _ | .getWorkPeriod _ | .queryData _ | .waitForData _ => false

/-- The argument an operation carries. -/
def Instr.arg : Instr → Word
  | .getFirmware a | .getWorkMode a | .setWorkMode a | .getReportingMode a | .setReportingMode a
  | .getWorkPeriod a | .setWorkPeriod a | .queryData a | .waitForData a => a

/-- An operation has a line in the text syntax of 30_encoding.md R96: the six that take no `arg` can only stand for
argument 0 there. -/
def Instr.textual (i : Instr) : Bool := i.usesArg || decide (i.arg = 0)

/-- A configuration the spec allows (00_scope.md R5): `CLK_HZ > 0`, `TIMEOUT_CYCLES ≥ 1` and
`TIMEOUT_CYCLES < 2^TIMER_W`. -/
def Config.wf (c : Config) : Bool :=
  decide (0 < c.clkHz) && decide (1 ≤ c.timeoutCycles) && decide (c.timeoutCycles < 2 ^ 32)

/-- Why parameters make no configuration. -/
inductive ConfigError where
  /-- `CLK_HZ` must be above 0 (R5). -/
  | clockZero
  /-- `TIMEOUT_CYCLES` must be at least 1 (R5). -/
  | windowZero
  /-- `TIMER_W` = 32 bits do not hold `TIMEOUT_CYCLES` (R5). -/
  | windowTooLong
  deriving DecidableEq, Repr

/-- Construction of a model's configuration, which refuses one the spec does not allow (93_implementation_defined.md part 2:
"a configuration error (`refuse` at model construction)"; notes/assumptions/10.md). -/
def Config.make (clkHz timeoutCycles : Nat) (policy : RxIdlePolicy) : Except ConfigError Config :=
  if clkHz = 0 then .error .clockZero
  else if timeoutCycles = 0 then .error .windowZero
  else if 2 ^ 32 ≤ timeoutCycles then .error .windowTooLong
  else .ok { clkHz, timeoutCycles, rxIdlePolicy := policy }

end Sys2Proof
end

