-- ==== Sys2Proof/Decode.lean ====
section
/-! DEFINITION. The request encoding (30_encoding.md R90 to R92): decoder, then encoder, and the numbering of a request's
bits by which the opcode table's rows are read. -/

namespace Sys2Proof

/-- Why a request decodes to no operation. -/
inductive DecodeError where
  /-- `req_op` is one of the reserved codes 0x9 to 0xF (R92). -/
  | reservedCode (op : BitVec 4)
  deriving DecidableEq, Repr

/-- The operation a request names: the table of R90, with the reserved codes of R92 rejected by name. -/
def decode (r : Request) : Except DecodeError Instr :=
  match r.op with
  | 0x0#4 => .ok (.getFirmware r.arg)
  | 0x1#4 => .ok (.getWorkMode r.arg)
  | 0x2#4 => .ok (.setWorkMode r.arg)
  | 0x3#4 => .ok (.getReportingMode r.arg)
  | 0x4#4 => .ok (.setReportingMode r.arg)
  | 0x5#4 => .ok (.getWorkPeriod r.arg)
  | 0x6#4 => .ok (.setWorkPeriod r.arg)
  | 0x7#4 => .ok (.queryData r.arg)
  | 0x8#4 => .ok (.waitForData r.arg)
  | op => .error (.reservedCode op)

/-- The request a host makes for an operation (R90, R91). -/
def encode : Instr → Request
  | .getFirmware a => ⟨0x0, a⟩
  | .getWorkMode a => ⟨0x1, a⟩
  | .setWorkMode a => ⟨0x2, a⟩
  | .getReportingMode a => ⟨0x3, a⟩
  | .setReportingMode a => ⟨0x4, a⟩
  | .getWorkPeriod a => ⟨0x5, a⟩
  | .setWorkPeriod a => ⟨0x6, a⟩
  | .queryData a => ⟨0x7, a⟩
  | .waitForData a => ⟨0x8, a⟩

/-- A request as one 36-bit word: `req_op` in bits 3..0, as the opcode table numbers them, `req_arg` in bits 35..4.
The spec gives the request two signals and no word; DESIGN CHOICE, notes/assumptions/7.md. -/
def Request.toWord (r : Request) : BitVec 36 := r.arg ++ r.op

/-- The request whose word this is. -/
def Request.ofWord (w : BitVec 36) : Request :=
  { op := w.extractLsb' 0 4, arg := w.extractLsb' 4 32 }

/-- The request of a word of which only the low `nbits` bits are given; the bits above are 0. -/
def Request.ofTableWord (nbits w : Nat) : Request :=
  Request.ofWord (BitVec.ofNat 36 (w % 2 ^ nbits))

/-- The operation the decoder reads from a word numbered as spec/opcode_table.json numbers its rows. -/
def decodeTableWord (nbits w : Nat) : Option Instr :=
  match decode (Request.ofTableWord nbits w) with
  | .ok i => some i
  | .error _ => none

end Sys2Proof
end

