-- ==== Sys2Proof/Machine/State.lean ====
section
/-! DEFINITION. The state of the machine: the registers of the block (10_state.md R20), its configuration and the state of its
environment; the reasons a step can stop; the state right after reset (10_state.md R42). -/

namespace Sys2Proof.Machine

/-- The states of the sequencer, a 2-bit register (R21). -/
inductive Fsm where
  /-- 0: no operation in progress. -/
  | idle
  /-- 1: the command frame is being written. -/
  | txw
  /-- 2: the bounded read is in progress. -/
  | rx
  /-- 3: never entered. -/
  | unused
  deriving DecidableEq, Repr

/-- The completion codes that are produced (30_encoding.md R93); `Code.bits` numbers them. -/
inductive Code where
  | ok
  | ioError
  | timeoutError
  | lengthError
  | checksumError
  | confirmationMismatch
  | rangeError
  | malformedInput
  | writeError
  deriving DecidableEq, Repr

/-- Why the machine stops. Every one is safe: the model stops where the spec gives no rule, in a state that no run from
`State.reset` reaches (notes/assumptions/9.md). -/
inductive Fault where
  /-- `FSM = 3`. Raised by `fetch` (so by `step`) and by every meaning. Safe: R21 allows a fault there. -/
  | fsmUnused
  /-- `ERR` holds a reserved code 9 to 15. Raised by `fetch` (so by `step`). Safe: 93_implementation_defined.md
  part 2 asks for a fault. -/
  | errReserved
  /-- `OP` holds a reserved code while an operation is in progress. Raised by `fetch` (so by `step`). Safe: a reserved
  code completes in its accept cycle (30_encoding.md R92), and no rule says what its response means. -/
  | opReservedBusy
  /-- `TIMER > TIMEOUT_CYCLES` in `RX`. Raised by every meaning. Safe: R159 to R163 give no rule, and
  93_implementation_defined.md part 2 calls the state unreachable. -/
  | timerBeyondWindow
  deriving DecidableEq, Repr

/-- Why a step is refused. -/
inductive Refusal where
  /-- An operation with no meaning yet: the dispatcher's own. Safe. No arm answers with it. -/
  | notModelled (mnemonic : String)
  deriving DecidableEq, Repr

/-- The registers of the block, R20: "The state of the block is exactly these registers". -/
structure Block where
  /-- `FSM`, R21. -/
  fsm : Fsm
  /-- `OP`, R22. -/
  op : BitVec 4
  /-- `ARG`, R23. -/
  arg : Word
  /-- `TXFRAME[0..18]`, R24. -/
  txFrame : CommandFrame
  /-- `RXBUF[0..9]`, R25. -/
  rxBuf : Capture
  /-- `RXLEN`, R26. -/
  rxLen : BitVec 8
  /-- `TIMER`, `TIMER_W` = 32 bits, R29. -/
  timer : BitVec 32
  /-- `ERR`, R30. -/
  err : BitVec 4
  /-- `DONE`, R31. -/
  done : Bool
  /-- `PULSE`, R32. -/
  pulse : Bool
  /-- `TXREQ_Q`, R27. -/
  txReqQ : Bool
  /-- `VAL0`, R33. -/
  val0 : Half
  /-- `VAL1`, R33. -/
  val1 : Half
  /-- `VAL2`, R33. -/
  val2 : Half
  /-- `TS`, R34. -/
  ts : Time
  deriving DecidableEq, Repr

/-- The environment: the channel's own state (R44, 42_transaction.md R156) and the model's schedule of free inputs. -/
structure Env where
  /-- The inbound bytes the channel holds and has not handed to the block, oldest first, R44. -/
  chanIn : List Byte
  /-- The writes the channel has begun and not yet answered, 42_transaction.md R156. -/
  owed : Nat
  /-- The frames of all write requests the block has made, oldest first, R27. The model's own record. -/
  writes : List CommandFrame
  /-- What host and channel do in the coming cycles, this cycle first. The model's own. -/
  drives : List Drive
  /-- The number of cycles so far: it picks the free input of a cycle that `drives` does not reach. The model's own. -/
  cycle : Nat
  deriving DecidableEq, Repr

/-- The whole machine. -/
structure State where
  cfg : Config
  blk : Block
  env : Env
  deriving DecidableEq, Repr

/-- The reset values of R42. -/
def Block.reset : Block where
  fsm := .idle
  op := 0
  arg := 0
  txFrame := Vector.replicate 19 0
  rxBuf := Vector.replicate 10 0
  rxLen := 0
  timer := 0
  err := 0
  done := false
  pulse := false
  txReqQ := false
  val0 := 0
  val1 := 0
  val2 := 0
  ts := 0

/-- An environment that holds nothing: no inbound byte, no unanswered write. DESIGN CHOICE, notes/assumptions/3.md
to 6.md. -/
def Env.start : Env where
  chanIn := []
  owed := 0
  writes := []
  drives := []
  cycle := 0

/-- The machine right after reset: every register at its value of R42. -/
def State.reset : State where
  cfg := Config.atReset
  blk := Block.reset
  env := Env.start

end Sys2Proof.Machine
end

