-- ==== Sys2Proof/Machine/Channel.lean ====
section
/-! DEFINITION. The ports of the block in one cycle: its outputs (10_state.md R41), the input pins, and what the cycle does to
the environment (10_state.md R27, R28, R44; 20_memory.md R65 to R67). -/

namespace Sys2Proof.Machine

/-- `req_ready`, R41. -/
def reqReady (b : Block) (rst : Bool) : Bool := b.fsm == .idle && !rst

/-- `tx_req`, R41. -/
def txReq (b : Block) (rst : Bool) : Bool := b.fsm == .txw && !rst

/-- `TIMER < TIMEOUT_CYCLES`: the read window is open, 42_transaction.md R159 and R166. -/
def inWindow (cfg : Config) (b : Block) : Bool := decide (b.timer.toNat < cfg.timeoutCycles)

/-- `rx_ready`, R41: in `RX` while the window is open, and in `IDLE` under `Drop`. -/
def rxReady (cfg : Config) (b : Block) (rst : Bool) : Bool :=
  !rst && ((b.fsm == .rx && inWindow cfg b) || (b.fsm == .idle && cfg.rxIdlePolicy == .drop))

/-- What host and channel do in this cycle: the head of the schedule, or a free value when it is used up. -/
def State.drive (s : State) : Drive :=
  match s.env.drives with
  | d :: _ => d
  | [] => Config.freeDrive s.env.cycle

/-- A write request begins: `tx_req = 1` and `TXREQ_Q = 0`, R27. -/
def State.writeBegins (s : State) : Bool := txReq s.blk s.drive.rst && !s.blk.txReqQ

/-- The writes that can be answered in this cycle: the unanswered ones and the one that begins now (42_transaction.md
R156: "in some later or the same cycle"). -/
def State.answerable (s : State) : Nat := s.env.owed + (if s.writeBegins then 1 else 0)

/-- The channel's inbound queue in this cycle, this cycle's arrivals included. -/
def State.inbound (s : State) : List Byte := s.env.chanIn ++ s.drive.arrive

/-- The input pins of this cycle. The channel answers only a write it owes an answer (42_transaction.md R156), and offers
only the head of its queue (20_memory.md R67). -/
def State.pins (s : State) : Pins where
  rst := s.drive.rst
  req := s.drive.req
  csrAddr := s.drive.csrAddr
  timeIn := s.drive.timeIn
  tx := if 0 < s.answerable then s.drive.answer else none
  rx := if s.drive.offer then s.inbound.head? else none
  rxErr := s.drive.rxErr

/-- The block takes `rx_err` in this cycle: in `RX` with the window open, 42_transaction.md R159 and R160. -/
def State.takesRxErr (s : State) : Bool :=
  s.blk.fsm == .rx && inWindow s.cfg s.blk && !s.pins.rst && s.pins.rxErr

/-- A byte is transferred in this cycle, R28: `rx_valid = rx_ready = 1`, unless the block takes `rx_err`. -/
def State.byteTaken (s : State) : Bool :=
  s.pins.rx.isSome && rxReady s.cfg s.blk s.pins.rst && !s.takesRxErr

/-- The environment after the cycle: a transferred byte leaves the queue, every other byte stays (R28); a write that begins
is recorded and owed one answer, an answer settles one (42_transaction.md R156). Reset of the block changes nothing
here (70_reset_and_hazards.md R281). -/
def State.nextEnv (s : State) : Env where
  chanIn := if s.byteTaken then s.inbound.tail else s.inbound
  owed := s.answerable - (if s.pins.tx.isSome then 1 else 0)
  writes := if s.writeBegins then s.env.writes ++ [s.blk.txFrame] else s.env.writes
  drives := s.env.drives.tail
  cycle := s.env.cycle + 1

/-- The end of a cycle that leaves the block with the registers `b` (00_scope.md R8). -/
def State.advance (s : State) (b : Block) : State :=
  { cfg := s.cfg, blk := b, env := s.nextEnv }

end Sys2Proof.Machine
end

