-- ==== Sys2Proof/Machine/Flags.lean ====
section
/-! DEFINITION. The numbers of states and codes, the status flags and the read-only register view (10_state.md R21, R38 to
R43; 30_encoding.md R93), and the block's outputs together (10_state.md R41). -/

namespace Sys2Proof.Machine

/-- The encoding of `FSM`, R21. -/
def Fsm.bits : Fsm → BitVec 2
  | .idle => 0
  | .txw => 1
  | .rx => 2
  | .unused => 3

/-- The completion code numbers, 30_encoding.md R93. -/
def Code.bits : Code → BitVec 4
  | .ok => 0
  | .ioError => 1
  | .timeoutError => 2
  | .lengthError => 3
  | .checksumError => 4
  | .confirmationMismatch => 5
  | .rangeError => 6
  | .malformedInput => 7
  | .writeError => 8

/-- `BUSY`: 1 exactly when `FSM ≠ IDLE`, R39. -/
def busy (b : Block) : Bool := !(b.fsm == .idle)

/-- The `STATUS` word, R39: reserved 0, `OP`, `ERR`, `STATE`, `DONE`, `BUSY`, high to low. -/
def statusWord (b : Block) : BitVec 32 :=
  0#20 ++ b.op ++ b.err ++ b.fsm.bits ++ BitVec.ofBool b.done ++ BitVec.ofBool (busy b)

/-- The register view, R38: `csr_rdata` for `csr_addr`, as the registers stand at the start of the cycle.
The ten numbers from 0x10 show `RXBUF`; a number R38 does not assign reads 0 (R40). -/
def csrRead (b : Block) (a : BitVec 5) : BitVec 32 :=
  match a.toNat with
  | 0x00 => statusWord b
  | 0x01 => b.val0.setWidth 32
  | 0x02 => b.val1.setWidth 32
  | 0x03 => b.val2.setWidth 32
  | 0x04 => b.ts.extractLsb' 0 32
  | 0x05 => b.ts.extractLsb' 32 32
  | 0x06 => b.rxLen.setWidth 32
  | 0x07 => b.arg
  | n => if h : 0x10 ≤ n ∧ n - 0x10 < 10 then (b.rxBuf[n - 0x10]'h.2).setWidth 32 else 0

/-- The outputs of the block in one cycle, R27, R28, R35, R38. `txFrame` is meaningful while `txReq` is 1. -/
structure Outputs where
  reqReady : Bool
  rspPulse : Bool
  txReq : Bool
  txFrame : CommandFrame
  rxReady : Bool
  csrRdata : BitVec 32
  deriving DecidableEq, Repr

/-- The outputs in this cycle, R41. -/
def State.outputs (s : State) : Outputs where
  reqReady := reqReady s.blk s.pins.rst
  rspPulse := s.blk.pulse
  txReq := txReq s.blk s.pins.rst
  txFrame := s.blk.txFrame
  rxReady := rxReady s.cfg s.blk s.pins.rst
  csrRdata := csrRead s.blk s.pins.csrAddr

end Sys2Proof.Machine
end

