-- ==== Sys2Proof/Machine/Checksum.lean ====
section
/-! DEFINITION. The ChecksumCodec (40_checksum.md). -/

namespace Sys2Proof.Machine

/-- `Checksum(s)`: the exact sum of the bytes, reduced modulo 256, R120. -/
def checksum (s : List Byte) : Byte := BitVec.ofNat 8 (s.map BitVec.toNat).sum

/-- `s[i..j]`, both ends included, 00_scope.md R7. -/
def slice (s : List Byte) (i j : Nat) : List Byte := (s.drop i).take (j + 1 - i)

end Sys2Proof.Machine
end

