-- ==== Sys2Proof/Machine/FrameCodec.lean ====
section
/-! DEFINITION. The FrameCodec: `Encode` and `Validate` (41_frame_codec.md), and the delimiter (42_transaction.md R162). -/

namespace Sys2Proof.Machine

/-- `TAIL`, the tail and delimiter byte, 00_scope.md R6. -/
def delimiter : Byte := 0xAB

/-- `Encode(body)`: the body, the checksum of its bytes 2 to 16, and the tail, R130. -/
def encodeFrame (body : Body) : CommandFrame :=
  body ++ #v[checksum (slice body.toList 2 16), delimiter]

/-- `Validate(RXBUF, RXLEN)`: the length check, then the checksum check on bytes 2 to 7, R133 to R135. Header, reply type,
class and device id are not checked (R137). -/
def validate (buf : Capture) (len : BitVec 8) : Code :=
  if len ≠ 10 then .lengthError
  else if checksum (slice buf.toList 2 7) ≠ buf[8] then .checksumError
  else .ok

end Sys2Proof.Machine
end

