-- ==== Sys2Proof/Machine/ValueDecoder.lean ====
section
/-! DEFINITION. The ValueDecoder (44_value_decoder.md). -/

namespace Sys2Proof.Machine

/-- An unsigned 16-bit little-endian number: the first byte is the low one, 20_memory.md R63. -/
def littleEndian (lo hi : Byte) : Half := lo.setWidth 16 ||| (hi.setWidth 16 <<< 8)

/-- `DecodeValues(b)`: the PM2.5 count of the first two bytes and the PM10 count of the last two, R240. -/
def decodeValues (b0 b1 b2 b3 : Byte) : Half × Half := (littleEndian b0 b1, littleEndian b2 b3)

end Sys2Proof.Machine
end

