-- ==== Sys2Proof/Machine/Operands.lean ====
section
/-! DEFINITION. The forms an operation's operands take: the argument and its admission (30_encoding.md R86, R91;
43_operations.md R190), the command bodies it goes into (30_encoding.md R80 to R83, R89), and the bytes of a valid
response it reads (30_encoding.md R85; 43_operations.md R191). -/

namespace Sys2Proof.Machine

/-- `ARG[7:0]`, R86. -/
def argByte (a : Word) : Byte := a.setWidth 8

/-- Admission of an operation that ignores its argument, R190. -/
def admitAny (_ : Word) : Code := .ok

/-- Admission of a mode argument: the whole signed value must be 0 or 1, R190. -/
def admitMode (a : Word) : Code :=
  if a.toInt = 0 ∨ a.toInt = 1 then .ok else .rangeError

/-- Admission of a work period: the whole signed value must lie in [0, 30], R190. -/
def admitPeriod (a : Word) : Code :=
  if 0 ≤ a.toInt ∧ a.toInt ≤ 30 then .ok else .rangeError

/-- A command body, R89: header, class byte, sub-command byte, payload byte 0, ten zero bytes, device-id wildcard. -/
def commandBody (cls rw vv : Byte) : Body :=
  #v[0xAA, 0xB4, cls, rw, vv, 0, 0, 0, 0, 0, 0, 0, 0, 0, 0, 0xFF, 0xFF]

/-- Class bytes, R82. -/
def classReportingMode : Byte := 0x02
/-- R82. -/
def classDataQuery : Byte := 0x04
/-- R82. -/
def classWorkMode : Byte := 0x06
/-- R82. -/
def classFirmware : Byte := 0x07
/-- R82. -/
def classWorkPeriod : Byte := 0x08

/-- Sub-command bytes, R83. -/
def subRead : Byte := 0x00
/-- R83. -/
def subWrite : Byte := 0x01

/-- The body of an operation that sends no argument: an all-zero payload, R86. -/
def readBody (cls : Byte) : Body := commandBody cls subRead 0

/-- The body of a set operation: the argument byte in payload byte 0, R86. -/
def writeBody (cls : Byte) (a : Word) : Body := commandBody cls subWrite (argByte a)

/-- The result registers a successful completion writes, 43_operations.md R191 and 60_exceptions.md R252.
`ts` is present for the two data operations only. -/
structure Writes where
  val0 : Half
  val1 : Half
  val2 : Half
  ts : Option Time
  deriving DecidableEq, Repr

/-- What `Interpret` returns: a completion code, and the writes of a success. -/
structure Verdict where
  code : Code
  writes : Option Writes
  deriving DecidableEq, Repr

/-- The interpretation of a firmware response: bytes 3, 4 and 5, R192. -/
def firmwareVerdict (buf : Capture) : Verdict :=
  ⟨.ok, some ⟨buf[3].setWidth 16, buf[4].setWidth 16, buf[5].setWidth 16, none⟩⟩

/-- The interpretation of a get response: byte 4 as it is, R193. -/
def byteVerdict (buf : Capture) : Verdict :=
  ⟨.ok, some ⟨buf[4].setWidth 16, 0, 0, none⟩⟩

/-- The interpretation of a set response: byte 4 must echo `ARG[7:0]`, R201. -/
def echoVerdict (a : Word) (buf : Capture) : Verdict :=
  if buf[4] ≠ argByte a then ⟨.confirmationMismatch, none⟩ else byteVerdict buf

/-- The interpretation of a measurement: the two counts, and the time stamp of this cycle, R199. -/
def dataVerdict (buf : Capture) (timeIn : Time) : Verdict :=
  let counts := decodeValues buf[2] buf[3] buf[4] buf[5]
  ⟨.ok, some ⟨counts.1, counts.2, 0, some timeIn⟩⟩

end Sys2Proof.Machine
end

