-- ==== Sys2Proof/Machine/Ops.lean ====
section
/-! DEFINITION. The named operations on the registers: the writes every cycle makes, accept, byte capture, and `Complete`, the
one operation that stands where other machines take an exception (60_exceptions.md R252). There is no return from it
(R254): the completed block is in `IDLE`. -/

namespace Sys2Proof.Machine

/-- The two writes every cycle makes first, 42_transaction.md R151: `TXREQ_Q <- tx_req`, `PULSE <- 0`. -/
def State.ticked (s : State) : Block :=
  { s.blk with txReqQ := txReq s.blk s.pins.rst, pulse := false }

/-- A cycle with `rst = 1`: every register takes its reset value, 70_reset_and_hazards.md R280. -/
def State.resetCycle (s : State) : State := s.advance Block.reset

/-- A cycle in `IDLE` without a request, 42_transaction.md R152. -/
def State.idleCycle (s : State) : State := s.advance s.ticked

/-- Writing the result registers, 43_operations.md R191. -/
def Block.performWrites (b : Block) (w : Writes) : Block :=
  { b with val0 := w.val0, val1 := w.val1, val2 := w.val2, ts := w.ts.getD b.ts }

/-- The part of `Complete` that every code performs, 60_exceptions.md R252. -/
def Block.endOperation (b : Block) (c : Code) : Block :=
  { b with err := c.bits, done := true, pulse := true, fsm := .idle }

/-- `Complete(code, writes)`, 60_exceptions.md R252: only a success performs the writes. -/
def Block.complete (b : Block) (v : Verdict) : Block :=
  match v.code, v.writes with
  | .ok, some w => (b.endOperation .ok).performWrites w
  | c, _ => b.endOperation c

/-- `Complete(code)` with no writes. -/
def Block.completeError (b : Block) (c : Code) : Block := b.complete ⟨c, none⟩

/-- Accept, 42_transaction.md R154. -/
def Block.accept (b : Block) (r : Request) : Block :=
  { b with
    op := r.op
    arg := r.arg
    done := false
    rxLen := 0
    rxBuf := Vector.replicate 10 0
    timer := 0 }

/-- Byte capture, 42_transaction.md R161: the byte is stored at index `RXLEN` if that is below 10, and counted up to 255. -/
def Block.capture (b : Block) (x : Byte) : Block :=
  { b with
    rxBuf := b.rxBuf.setIfInBounds b.rxLen.toNat x
    rxLen := BitVec.ofNat 8 (min (b.rxLen.toNat + 1) 255) }

/-- `TIMER <- TIMER + 1`, 42_transaction.md R162 and R163. -/
def Block.countCycle (b : Block) : Block := { b with timer := b.timer + 1 }

/-- Entry to the bounded read: `FSM <- RX; TIMER <- 0`, 42_transaction.md R155 and R157. -/
def Block.startRead (b : Block) : Block := { b with fsm := .rx, timer := 0 }

/-- Entry to the write: `TXFRAME <- Encode(body); FSM <- TXW`, 42_transaction.md R155. -/
def Block.startWrite (b : Block) (body : Body) : Block :=
  { b with fsm := .txw, txFrame := encodeFrame body }

/-- A reserved code is accepted and completes in the same cycle with `MalformedInput`, 30_encoding.md R92. -/
def State.rejectReserved (s : State) (r : Request) : State :=
  s.advance ((s.ticked.accept r).completeError .malformedInput)

end Sys2Proof.Machine
end

