-- ==== Sys2Proof/Machine/Transaction.lean ====
section
/-! DEFINITION. The TransactionExecutor (42_transaction.md): one clock cycle of an operation, whichever operation it is. -/

namespace Sys2Proof.Machine

/-- What distinguishes one host operation from another (43_operations.md §1): its code and argument, its admission, the body
it sends (none for the one that sends no frame) and its interpretation of a valid response. -/
structure Operation where
  code : BitVec 4
  arg : Word
  admission : Code
  body : Option Body
  interpret : Capture → Time → Verdict

/-- Admission in the accept cycle, R155. -/
def Block.admitRequest (b : Block) (o : Operation) : Block :=
  match o.admission, o.body with
  | .ok, none => b.startRead
  | .ok, some body => b.startWrite body
  | c, _ => b.completeError c

/-- A cycle in `TXW`: the write's answer, R157, or nothing (R158: there is no timeout). -/
def Block.txStep (b : Block) (answer : Option WriteAnswer) : Block :=
  match answer with
  | none => b
  | some a =>
    if a.ioerr then b.completeError .ioError
    else if a.count ≠ 19 then b.completeError .writeError
    else b.startRead

/-- `Finish`, R164: validate the capture, then interpret it. -/
def Block.finish (b : Block) (o : Operation) (timeIn : Time) : Block :=
  match validate b.rxBuf b.rxLen with
  | .ok => b.complete (o.interpret b.rxBuf timeIn)
  | c => b.completeError c

/-- A byte taken in `RX`, R161 and R162: the first delimiter ends the read. -/
def Block.takeByte (b : Block) (o : Operation) (timeIn : Time) (x : Byte) : Block :=
  if x = delimiter then (b.capture x).finish o timeIn else (b.capture x).countCycle

/-- A cycle in `RX` with the window open, R160 to R163: `rx_err` first, then a byte, then the idle cycle. -/
def Block.rxOpen (b : Block) (o : Operation) (p : Pins) : Block :=
  if p.rxErr then b.completeError .ioError
  else match p.rx with
    | some x => b.takeByte o p.timeIn x
    | none => b.countCycle

/-- A cycle in `RX`: the timeout at `TIMER = TIMEOUT_CYCLES`, R159, else the open window. No rule covers a timer beyond the
window (`none`). -/
def Block.rxStep (b : Block) (cfg : Config) (o : Operation) (p : Pins) : Option Block :=
  if inWindow cfg b then some (b.rxOpen o p)
  else if b.timer.toNat = cfg.timeoutCycles then some (b.completeError .timeoutError)
  else none

/-- One clock cycle of the operation `o`, R151: its accept cycle if the block is `IDLE`, else a cycle of its transaction. A
reset cycle abandons it (70_reset_and_hazards.md R280, R281). -/
def operate (o : Operation) (s : State) : Host.Outcome State Fault Refusal :=
  if s.pins.rst then .next s.resetCycle
  else match s.blk.fsm with
    | .idle => .next (s.advance ((s.ticked.accept ⟨o.code, o.arg⟩).admitRequest o))
    | .txw => .next (s.advance (s.ticked.txStep s.pins.tx))
    | .rx =>
      match s.ticked.rxStep s.cfg o s.pins with
      | some b => .next (s.advance b)
      | none => .fault .timerBeyondWindow
    | .unused => .fault .fsmUnused

end Sys2Proof.Machine
end

