-- ==== Sys2Proof/Machine/DataOps.lean ====
section
/-! DEFINITION. The two measurement operations: QUERY_DATA and WAIT_FOR_DATA (43_operations.md R199, R200). Neither checks the
peripheral's reporting mode, of which the block keeps no record (R203). -/

namespace Sys2Proof.Machine

/-- `QUERY_DATA`, R199. -/
def queryDataOp (a : Word) : Operation where
  code := 0x7
  arg := a
  admission := admitAny a
  body := some (readBody classDataQuery)
  interpret := dataVerdict

/-- `WAIT_FOR_DATA`, R200: it sends no frame. -/
def waitForDataOp (a : Word) : Operation where
  code := 0x8
  arg := a
  admission := admitAny a
  body := none
  interpret := dataVerdict

/-- A cycle of `QUERY_DATA`, R199. -/
def execQueryData (a : Word) (s : State) : Host.Outcome State Fault Refusal := operate (queryDataOp a) s

/-- A cycle of `WAIT_FOR_DATA`, R200. -/
def execWaitForData (a : Word) (s : State) : Host.Outcome State Fault Refusal := operate (waitForDataOp a) s

end Sys2Proof.Machine
end

