-- ==== Sys2Proof/Machine/Getters.lean ====
section
/-! DEFINITION. The four operations that read from the peripheral without a check of its answer: GET_FIRMWARE, GET_WORK_MODE,
GET_REPORTING_MODE and GET_WORK_PERIOD (43_operations.md R192, R193, R195, R197). -/

namespace Sys2Proof.Machine

/-- `GET_FIRMWARE`, R192. -/
def getFirmwareOp (a : Word) : Operation where
  code := 0x0
  arg := a
  admission := admitAny a
  body := some (readBody classFirmware)
  interpret := fun buf _ => firmwareVerdict buf

/-- `GET_WORK_MODE`, R193. -/
def getWorkModeOp (a : Word) : Operation where
  code := 0x1
  arg := a
  admission := admitAny a
  body := some (readBody classWorkMode)
  interpret := fun buf _ => byteVerdict buf

/-- `GET_REPORTING_MODE`, R195. -/
def getReportingModeOp (a : Word) : Operation where
  code := 0x3
  arg := a
  admission := admitAny a
  body := some (readBody classReportingMode)
  interpret := fun buf _ => byteVerdict buf

/-- `GET_WORK_PERIOD`, R197. -/
def getWorkPeriodOp (a : Word) : Operation where
  code := 0x5
  arg := a
  admission := admitAny a
  body := some (readBody classWorkPeriod)
  interpret := fun buf _ => byteVerdict buf

/-- A cycle of `GET_FIRMWARE`, R192. -/
def execGetFirmware (a : Word) (s : State) : Host.Outcome State Fault Refusal := operate (getFirmwareOp a) s

/-- A cycle of `GET_WORK_MODE`, R193. -/
def execGetWorkMode (a : Word) (s : State) : Host.Outcome State Fault Refusal := operate (getWorkModeOp a) s

/-- A cycle of `GET_REPORTING_MODE`, R195. -/
def execGetReportingMode (a : Word) (s : State) : Host.Outcome State Fault Refusal :=
  operate (getReportingModeOp a) s

/-- A cycle of `GET_WORK_PERIOD`, R197. -/
def execGetWorkPeriod (a : Word) (s : State) : Host.Outcome State Fault Refusal := operate (getWorkPeriodOp a) s

end Sys2Proof.Machine
end

