-- ==== Sys2Proof/Machine/Setters.lean ====
section
/-! DEFINITION. The three operations that set a value and confirm its echo: SET_WORK_MODE, SET_REPORTING_MODE and
SET_WORK_PERIOD (43_operations.md R194, R196, R198, R201). Each makes exactly one transaction (R202). -/

namespace Sys2Proof.Machine

/-- `SET_WORK_MODE`, R194. -/
def setWorkModeOp (a : Word) : Operation where
  code := 0x2
  arg := a
  admission := admitMode a
  body := some (writeBody classWorkMode a)
  interpret := fun buf _ => echoVerdict a buf

/-- `SET_REPORTING_MODE`, R196. -/
def setReportingModeOp (a : Word) : Operation where
  code := 0x4
  arg := a
  admission := admitMode a
  body := some (writeBody classReportingMode a)
  interpret := fun buf _ => echoVerdict a buf

/-- `SET_WORK_PERIOD`, R198. -/
def setWorkPeriodOp (a : Word) : Operation where
  code := 0x6
  arg := a
  admission := admitPeriod a
  body := some (writeBody classWorkPeriod a)
  interpret := fun buf _ => echoVerdict a buf

/-- A cycle of `SET_WORK_MODE`, R194. -/
def execSetWorkMode (a : Word) (s : State) : Host.Outcome State Fault Refusal := operate (setWorkModeOp a) s

/-- A cycle of `SET_REPORTING_MODE`, R196. -/
def execSetReportingMode (a : Word) (s : State) : Host.Outcome State Fault Refusal :=
  operate (setReportingModeOp a) s

/-- A cycle of `SET_WORK_PERIOD`, R198. -/
def execSetWorkPeriod (a : Word) (s : State) : Host.Outcome State Fault Refusal := operate (setWorkPeriodOp a) s

end Sys2Proof.Machine
end

