-- ==== Sys2Proof/Machine/Dispatch.lean ====
section
/-! DEFINITION. exec: one clock cycle of a host operation, one arm per operation. -/

namespace Sys2Proof.Machine

def exec (i : Instr) (s : State) : Host.Outcome State Fault Refusal :=
  match i with
  | .getFirmware a => Sys2Proof.Machine.execGetFirmware a s
  | .getWorkMode a => Sys2Proof.Machine.execGetWorkMode a s
  | .setWorkMode a => Sys2Proof.Machine.execSetWorkMode a s
  | .getReportingMode a => Sys2Proof.Machine.execGetReportingMode a s
  | .setReportingMode a => Sys2Proof.Machine.execSetReportingMode a s
  | .getWorkPeriod a => Sys2Proof.Machine.execGetWorkPeriod a s
  | .setWorkPeriod a => Sys2Proof.Machine.execSetWorkPeriod a s
  | .queryData a => Sys2Proof.Machine.execQueryData a s
  | .waitForData a => Sys2Proof.Machine.execWaitForData a s

end Sys2Proof.Machine
end

