-- ==== Sys2Proof/Machine/Fetch.lean ====
section
/-! DEFINITION. What a cycle is to run: the request it accepts, or the operation in progress (42_transaction.md R151). -/

namespace Sys2Proof.Machine

/-- What a cycle runs. -/
inductive Fetched where
  /-- A reset cycle, 70_reset_and_hazards.md R280. -/
  | reset
  /-- `IDLE` without a request, 42_transaction.md R152. -/
  | quiet
  /-- A request with a reserved code, 30_encoding.md R92. -/
  | reserved (r : Request)
  /-- A cycle of an operation: its accept cycle, or one of its transaction. -/
  | run (i : Instr)
  | stop (f : Fault)
  deriving DecidableEq, Repr

/-- The request accepted in an `IDLE` cycle, 10_state.md R35. -/
def fetchRequest (r : Request) : Fetched :=
  match decode r with
  | .ok i => .run i
  | .error _ => .reserved r

/-- The operation in progress: the one `OP` and `ARG` hold, 42_transaction.md R164. -/
def fetchBusy (b : Block) : Fetched :=
  match decode ⟨b.op, b.arg⟩ with
  | .ok i => .run i
  | .error _ => .stop .opReservedBusy

/-- What this cycle runs. Reset comes before every other rule (R280); a state the spec marks as unreachable is met with a
fault (93_implementation_defined.md part 2). -/
def fetch (s : State) : Fetched :=
  if s.pins.rst then .reset
  else if 8 < s.blk.err.toNat then .stop .errReserved
  else match s.blk.fsm with
    | .idle =>
      match s.pins.req with
      | some r => fetchRequest r
      | none => .quiet
    | .txw => fetchBusy s.blk
    | .rx => fetchBusy s.blk
    | .unused => .stop .fsmUnused

/-- The state in which the next cycle accepts the request `r`: the block is `IDLE`, and this cycle's inputs are a request
and no reset. -/
def State.withRequest (s : State) (r : Request) : State :=
  { s with
    blk := { s.blk with fsm := .idle }
    env := { s.env with drives := { s.drive with rst := false, req := some r } :: s.env.drives.tail } }

end Sys2Proof.Machine
end

