-- ==== Sys2Proof/Machine/Step.lean ====
section
/-! DEFINITION. step: one clock cycle of the machine (92_eei_decisions.md D1), and how a request word is put where the next
step fetches it. -/

namespace Sys2Proof.Machine

/-- One clock cycle, 42_transaction.md R151. -/
def step (s : State) : Host.Outcome State Fault Refusal :=
  match fetch s with
  | .reset => .next s.resetCycle
  | .quiet => .next s.idleCycle
  | .reserved r => .next (s.rejectReserved r)
  | .run i => exec i s
  | .stop f => .fault f

/-- The host presents the request of that word to an idle block in the next cycle (notes/assumptions/7.md, 8.md). -/
def State.withFetchWord (s : State) (nbits w : Nat) : State :=
  s.withRequest (Request.ofTableWord nbits w)

end Sys2Proof.Machine
end

