-- ==== Sys2Proof/Machine/HostSide.lean ====
section
/-! DEFINITION. Two functions of the host's software on the block's results. They are no part of the block (00_scope.md R4),
and no step uses them; the spec says what they compute (43_operations.md R204, 44_value_decoder.md R242). -/

namespace Sys2Proof.Machine

/-- `YEAR_PAD`, the host's parameter for year offsets below 10, R204. -/
inductive YearPad where
  | pad2
  | none
  deriving DecidableEq, Repr

/-- The decimal digits of a number, without a leading zero, by at most `fuel` digits. -/
def decimal : Nat → Nat → List Char
  | 0, _ => []
  | fuel + 1, n =>
    if n < 10 then [Char.ofNat (48 + n)]
    else decimal fuel (n / 10) ++ [Char.ofNat (48 + n % 10)]

/-- The decimal digits of a result register, which has at most five. -/
def decimalHalf (v : Half) : List Char := decimal 5 v.toNat

/-- The firmware date the host renders from `VAL0` to `VAL2`, R204: year offset, month and day in decimal, month and day
without a leading zero. -/
def firmwareDate (pad : YearPad) (b : Block) : List Char :=
  let year :=
    match pad with
    | .pad2 => if b.val0.toNat < 10 then '0' :: decimalHalf b.val0 else decimalHalf b.val0
    | .none => decimalHalf b.val0
  ['2', '0'] ++ year ++ ['-'] ++ decimalHalf b.val1 ++ ['-'] ++ decimalHalf b.val2

/-- The concentration in µg/m³ that a count denotes, as an exact rational, R242. -/
def concentration (count : Half) : Rat := (count.toNat : Rat) / 10

end Sys2Proof.Machine
end

