-- ==== Sys2Proof/Machine/Operations.lean ====
section
/-! DEFINITION. The operation each instruction stands for, by which a claim speaks of all nine at once. No step uses it: exec
calls each meaning directly. -/

namespace Sys2Proof.Machine

/-- The operation of an instruction. -/
def operationFor : Instr → Operation
  | .getFirmware a => getFirmwareOp a
  | .getWorkMode a => getWorkModeOp a
  | .setWorkMode a => setWorkModeOp a
  | .getReportingMode a => getReportingModeOp a
  | .setReportingMode a => setReportingModeOp a
  | .getWorkPeriod a => getWorkPeriodOp a
  | .setWorkPeriod a => setWorkPeriodOp a
  | .queryData a => queryDataOp a
  | .waitForData a => waitForDataOp a

end Sys2Proof.Machine
end

