-- ==== Sys2Proof/Machine/TextSyntax.lean ====
section
/-! DEFINITION. The text syntax of the host operations, one per line (30_encoding.md R96). A line is a list of characters.
There are no pseudo-operations (R97). -/

namespace Sys2Proof.Machine

/-- A mnemonic, R90, with the code it stands for. -/
structure Mnemonic where
  name : List Char
  code : BitVec 4

/-- The mnemonics of R90. -/
def mnemonics : List Mnemonic :=
  [⟨"GET_FIRMWARE".toList, 0x0⟩, ⟨"GET_WORK_MODE".toList, 0x1⟩, ⟨"SET_WORK_MODE".toList, 0x2⟩,
   ⟨"GET_REPORTING_MODE".toList, 0x3⟩, ⟨"SET_REPORTING_MODE".toList, 0x4⟩, ⟨"GET_WORK_PERIOD".toList, 0x5⟩,
   ⟨"SET_WORK_PERIOD".toList, 0x6⟩, ⟨"QUERY_DATA".toList, 0x7⟩, ⟨"WAIT_FOR_DATA".toList, 0x8⟩]

/-- The value of a digit in base 10 or 16. -/
def digitValue (base : Nat) (c : Char) : Option Nat :=
  let n := c.toNat
  let v :=
    if 48 ≤ n ∧ n ≤ 57 then some (n - 48)
    else if 97 ≤ n ∧ n ≤ 102 then some (n - 87)
    else if 65 ≤ n ∧ n ≤ 70 then some (n - 55)
    else none
  match v with
  | some d => if d < base then some d else none
  | none => none

/-- The digits of a number after those already read, whose value is `acc`. -/
def readDigits (base acc : Nat) : List Char → Option Nat
  | [] => some acc
  | c :: cs =>
    match digitValue base c with
    | some d => readDigits base (acc * base + d) cs
    | none => none

/-- A number of at least one digit. -/
def readNumber (base : Nat) : List Char → Option Nat
  | [] => none
  | cs => readDigits base 0 cs

/-- The two's-complement word of an integer, if `ARG_W` = 32 bits hold it. -/
def wordOfInt (n : Int) : Option Word :=
  if -2147483648 ≤ n ∧ n ≤ 2147483647 then some (BitVec.ofInt 32 n) else none

/-- An `arg`: a decimal integer with an optional leading `-`, or a `0x` hex number, R96. A hex number is the word itself.
A number the port cannot hold is no `arg` (DESIGN CHOICE, notes/assumptions/14.md). -/
def readArg : List Char → Option Word
  | '0' :: 'x' :: cs =>
    match readNumber 16 cs with
    | some n => if n < 4294967296 then some (BitVec.ofNat 32 n) else none
    | none => none
  | '-' :: cs =>
    match readNumber 10 cs with
    | some n => wordOfInt (-(n : Int))
    | none => none
  | cs =>
    match readNumber 10 cs with
    | some n => wordOfInt n
    | none => none

/-- The symbolic forms of an argument in the matching set operation, R96 with the values of R88. -/
def readSymbol (i : Instr) (cs : List Char) : Option Word :=
  match i with
  | .setWorkMode _ =>
    if cs = "Sleep".toList then some 0 else if cs = "Active".toList then some 1 else none
  | .setReportingMode _ =>
    if cs = "Active".toList then some 0 else if cs = "Query".toList then some 1 else none
  | _ => none

/-- The words of a line: its maximal runs of characters other than the blank. -/
def wordsOf : List Char → List (List Char)
  | [] => []
  | c :: cs =>
    if c = ' ' then wordsOf cs
    else
      match cs with
      | [] => [[c]]
      | d :: _ =>
        if d = ' ' then [c] :: wordsOf cs
        else
          match wordsOf cs with
          | [] => [[c]]
          | w :: ws => (c :: w) :: ws

/-- The request of a mnemonic's code with an argument, as an operation. -/
def operationOf (code : BitVec 4) (a : Word) : Option Instr :=
  match decode ⟨code, a⟩ with
  | .ok i => some i
  | .error _ => none

/-- The operation a mnemonic and the words after it stand for: a set operation takes exactly one `arg`, the others take none. -/
def readOperation (code : BitVec 4) (args : List (List Char)) : Option Instr :=
  match operationOf code 0 with
  | none => none
  | some i =>
    if i.usesArg then
      match args with
      | [w] =>
        match readSymbol i w, readArg w with
        | some a, _ => operationOf code a
        | none, some a => operationOf code a
        | none, none => none
      | _ => none
    else
      match args with
      | [] => some i
      | _ => none

/-- The operation of a line `MNEMONIC` or `MNEMONIC arg`, R96. -/
def parseLine (line : List Char) : Option Instr :=
  match wordsOf line with
  | [] => none
  | m :: args =>
    match mnemonics.find? (fun e => decide (e.name = m)) with
    | some e => readOperation e.code args
    | none => none

/-- A hex digit. -/
def hexDigit (n : Nat) : Char :=
  if n < 10 then Char.ofNat (48 + n) else Char.ofNat (87 + n)

/-- The `k` low hex digits of a number, the highest first. -/
def hexDigits : Nat → Nat → List Char
  | 0, _ => []
  | k + 1, n => hexDigits k (n / 16) ++ [hexDigit (n % 16)]

/-- The mnemonic of an operation. -/
def mnemonicOf (i : Instr) : List Char :=
  match mnemonics.find? (fun e => decide (e.code = (encode i).op)) with
  | some e => e.name
  | none => []

/-- A line for an operation: the argument of a set operation as eight hex digits. -/
def printLine (i : Instr) : List Char :=
  if i.usesArg then mnemonicOf i ++ [' ', '0', 'x'] ++ hexDigits 8 i.arg.toNat else mnemonicOf i

end Sys2Proof.Machine
end

