-- ==== Sys2Proof/Safety.lean ====
section
/-! DEFINITION. The terms claims are stated in: the spec's own tables and pseudocode, copied beside the machine and not used by
it; the conditions on one cycle; the invariant; and the states a run may start from. -/

namespace Sys2Proof.Safety

open Sys2Proof.Machine

/-! The spec's tables. -/

/-- `Admit(op, arg)`, the pseudocode of 43_operations.md R190. -/
def specAdmit (op : BitVec 4) (a : Word) : Code :=
  if 0x9 ≤ op.toNat then .malformedInput
  else if op = 0x6 ∧ ¬(0 ≤ a.toInt ∧ a.toInt ≤ 30) then .rangeError
  else if (op = 0x2 ∨ op = 0x4) ∧ ¬(a.toInt = 0 ∨ a.toInt = 1) then .rangeError
  else .ok

/-- `Template(OP, ARG)`, the rows of 30_encoding.md R89 with `vv` = `ARG[7:0]`. -/
def specTemplate (op : BitVec 4) (a : Word) : Option Body :=
  let vv := a.extractLsb' 0 8
  match op with
  | 0x0#4 => some #v[0xAA, 0xB4, 0x07, 0x00, 0, 0, 0, 0, 0, 0, 0, 0, 0, 0, 0, 0xFF, 0xFF]
  | 0x1#4 => some #v[0xAA, 0xB4, 0x06, 0x00, 0, 0, 0, 0, 0, 0, 0, 0, 0, 0, 0, 0xFF, 0xFF]
  | 0x2#4 => some #v[0xAA, 0xB4, 0x06, 0x01, vv, 0, 0, 0, 0, 0, 0, 0, 0, 0, 0, 0xFF, 0xFF]
  | 0x3#4 => some #v[0xAA, 0xB4, 0x02, 0x00, 0, 0, 0, 0, 0, 0, 0, 0, 0, 0, 0, 0xFF, 0xFF]
  | 0x4#4 => some #v[0xAA, 0xB4, 0x02, 0x01, vv, 0, 0, 0, 0, 0, 0, 0, 0, 0, 0, 0xFF, 0xFF]
  | 0x5#4 => some #v[0xAA, 0xB4, 0x08, 0x00, 0, 0, 0, 0, 0, 0, 0, 0, 0, 0, 0, 0xFF, 0xFF]
  | 0x6#4 => some #v[0xAA, 0xB4, 0x08, 0x01, vv, 0, 0, 0, 0, 0, 0, 0, 0, 0, 0, 0xFF, 0xFF]
  | 0x7#4 => some #v[0xAA, 0xB4, 0x04, 0x00, 0, 0, 0, 0, 0, 0, 0, 0, 0, 0, 0, 0xFF, 0xFF]
  | _ => none

/-- `Interpret(OP, ARG, buf)`, the pseudocode of 43_operations.md R191, with the counts of 44_value_decoder.md R240 written
as their bytes, high byte first. A reserved code is interpreted by no rule. -/
def specInterpret (op : BitVec 4) (a : Word) (buf : Capture) (timeIn : Time) : Option Verdict :=
  let zext (x : Byte) : Half := 0#8 ++ x
  if op = 0x0 then some ⟨.ok, some ⟨zext buf[3], zext buf[4], zext buf[5], none⟩⟩
  else if op = 0x1 ∨ op = 0x3 ∨ op = 0x5 then some ⟨.ok, some ⟨zext buf[4], 0, 0, none⟩⟩
  else if op = 0x2 ∨ op = 0x4 ∨ op = 0x6 then
    if buf[4] ≠ a.extractLsb' 0 8 then some ⟨.confirmationMismatch, none⟩
    else some ⟨.ok, some ⟨zext buf[4], 0, 0, none⟩⟩
  else if op = 0x7 ∨ op = 0x8 then some ⟨.ok, some ⟨buf[3] ++ buf[2], buf[5] ++ buf[4], 0, some timeIn⟩⟩
  else none

/-- `Validate(raw)` on an unbounded capture, 41_frame_codec.md R133 and R134. -/
def specValidate (raw : List Byte) : Code :=
  if raw.length ≠ 10 then .lengthError
  else if some (checksum ((raw.drop 2).take 6)) ≠ raw[8]? then .checksumError
  else .ok

/-! One cycle. -/

/-- No reset in this cycle, and the block is in the sequencer state `f`. -/
def InState (s : State) (f : Fsm) : Prop := s.pins.rst = false ∧ s.blk.fsm = f

/-- A cycle of the bounded read with the window open and no read failure (42_transaction.md R161, R163). -/
def Reading (s : State) : Prop := InState s .rx ∧ s.blk.timer.toNat < s.cfg.timeoutCycles ∧ s.pins.rxErr = false

/-- The tenth byte of a capture is offered in this cycle and is the delimiter, and the nine bytes before it make it a frame
that passes `Validate` (42_transaction.md R162, 41_frame_codec.md R135). -/
def ValidFrameEnds (s : State) : Prop :=
  Reading s ∧ s.pins.rx = some 0xAB ∧ s.blk.rxLen = 9 ∧
    checksum [s.blk.rxBuf[2], s.blk.rxBuf[3], s.blk.rxBuf[4], s.blk.rxBuf[5], s.blk.rxBuf[6], s.blk.rxBuf[7]]
      = s.blk.rxBuf[8]

/-- The registers when a capture of ten bytes has ended the operation with `code` (60_exceptions.md R252): the tenth byte
is in, the completion is signalled, everything else is as it was. -/
def frameEnded (b : Block) (code : BitVec 4) : Block :=
  { b with
    rxBuf := b.rxBuf.set 9 0xAB, rxLen := 10
    err := code, done := true, pulse := true, fsm := .idle, txReqQ := false }

/-- The registers after an accept of the request `(op, arg)` and before its admission (42_transaction.md R151, R154). -/
def accepted (b : Block) (op : BitVec 4) (a : Word) : Block :=
  { b with
    op := op, arg := a, done := false, rxLen := 0, rxBuf := Vector.replicate 10 0, timer := 0
    pulse := false, txReqQ := false }

/-- The registers when the operation in progress, or the one just accepted, ends with an error (60_exceptions.md R252). -/
def failed (b : Block) (code : BitVec 4) : Block :=
  { b with err := code, done := true, pulse := true, fsm := .idle }

/-! Runs. -/

/-- `n` cycles of the machine. -/
def runFor (n : Nat) (s : State) : Host.Outcome State Fault Refusal := Host.Core.run Sys2Proof.core n s

/-- The schedule decides the next `n` cycles, and each of its entries there meets `p`. -/
def NextDrives (s : State) (n : Nat) (p : Drive → Prop) : Prop :=
  n ≤ s.env.drives.length ∧ ∀ d ∈ s.env.drives.take n, p d

/-- A state in which the block has just been reset, in any environment and under any allowed configuration
(70_reset_and_hazards.md R283). -/
def Start (s : State) : Prop := s.cfg.wf = true ∧ s.blk = Block.reset

/-! The invariant. -/

/-- The bytes of the capture buffer while an operation is in progress: no delimiter among the captured ones
(42_transaction.md R162), zeros after them (R154). -/
def CaptureClean (b : Block) : Prop :=
  ∀ j (h : j < 10), (j < b.rxLen.toNat → b.rxBuf[j] ≠ delimiter) ∧ (b.rxLen.toNat ≤ j → b.rxBuf[j] = 0)

/-- A whole frame in the capture buffer: its tail is the only delimiter (41_frame_codec.md R136). -/
def FrameCaptured (b : Block) : Prop :=
  b.rxLen = 10 ∧ b.rxBuf[9] = delimiter ∧ ∀ j (h : j < 9), b.rxBuf[j] ≠ delimiter

/-- What holds in every state a run from a reset reaches. -/
structure Invariant (s : State) : Prop where
  /-- The configuration is one the spec allows (00_scope.md R5). -/
  cfg : s.cfg.wf = true
  /-- `FSM` is never 3 (10_state.md R21). -/
  fsm : s.blk.fsm ≠ .unused
  /-- The reserved codes are never produced (30_encoding.md R93). -/
  err : s.blk.err.toNat ≤ 8
  /-- `TIMER` stops at `TIMEOUT_CYCLES` (60_exceptions.md R260). -/
  timer : s.blk.timer.toNat ≤ s.cfg.timeoutCycles
  /-- The operation in progress was admitted (42_transaction.md R155). -/
  admitted : s.blk.fsm ≠ .idle → specAdmit s.blk.op s.blk.arg = .ok
  /-- In `TXW`, `TXFRAME` is the encoded template of the operation (10_state.md R24); `WAIT_FOR_DATA` is never there. -/
  frame : s.blk.fsm = .txw → ∃ body, specTemplate s.blk.op s.blk.arg = some body ∧ s.blk.txFrame = encodeFrame body
  /-- In `TXW`, nothing has been captured (20_memory.md R66). -/
  written : s.blk.fsm = .txw → s.blk.rxLen = 0
  /-- While an operation is in progress the capture holds no delimiter. -/
  clean : s.blk.fsm ≠ .idle → CaptureClean s.blk
  /-- A read takes at most one byte a cycle (10_state.md R28). -/
  paced : s.blk.fsm = .rx → s.blk.rxLen.toNat ≤ s.blk.timer.toNat
  /-- `DONE` is 0 while an operation is in progress (10_state.md R31). -/
  done : s.blk.fsm ≠ .idle → s.blk.done = false
  /-- `rsp_pulse` is high only after a completion (10_state.md R32). -/
  pulse : s.blk.pulse = true → s.blk.fsm = .idle ∧ s.blk.done = true
  /-- After a success, a checksum error or a confirmation mismatch the buffer holds a whole frame (41_frame_codec.md R136). -/
  captured : s.blk.fsm = .idle → s.blk.done = true → s.blk.err = 0 ∨ s.blk.err = 4 ∨ s.blk.err = 5 →
    FrameCaptured s.blk
  /-- After the first `TXW` cycle the channel owes an answer (42_transaction.md R156). -/
  owed : s.blk.fsm = .txw → s.blk.txReqQ = true → 0 < s.env.owed

end Sys2Proof.Safety
end

