-- ==== Sys2Proof/Certificates/Slice0/Obligations.lean ====
section
/-! DEFINITION. The statements for the provers. `exec i s` is one clock cycle of the operation `i`; `s.advance b` is the state at
the end of the cycle whose registers are then `b`. Each docstring names the rule of spec/ it formalises. -/

open Sys2Proof Sys2Proof.Machine Sys2Proof.Safety

/-! Encoding -/

/-- 30_encoding.md R90, R91. A request word has one meaning, and an operation one request word: decoding `w` gives `i` exactly
when `w` is the word of the encoding of `i`, whatever the argument. The place of the fields in one word is the model's
choice (notes/assumptions/7.md). -/
def Obligations.DecodeAndEncodeAgree : Prop :=
  ∀ (w : BitVec 36) (i : Instr), decode (Request.ofWord w) = .ok i ↔ w = (encode i).toWord

/-- 30_encoding.md R90, R92: the codes of the table, and two reserved ones. Each stands in the low four bits of a 36-bit word with
the argument above it; that layout is the model's choice (notes/assumptions/7.md), the spec gives two signals and no word. -/
def Obligations.SpecWordsDecode : Prop :=
  decodeTableWord 36 0x000000000 = some (.getFirmware 0) ∧
  decodeTableWord 36 0x000000551 = some (.getWorkMode 0x55) ∧
  decodeTableWord 36 0x000000012 = some (.setWorkMode 1) ∧
  decodeTableWord 36 0x000000003 = some (.getReportingMode 0) ∧
  decodeTableWord 36 0x000000014 = some (.setReportingMode 1) ∧
  decodeTableWord 36 0x000000005 = some (.getWorkPeriod 0) ∧
  decodeTableWord 36 0xFFFFFFFF6 = some (.setWorkPeriod (-1)) ∧
  decodeTableWord 36 0x000000007 = some (.queryData 0) ∧
  decodeTableWord 36 0x000000008 = some (.waitForData 0) ∧
  decodeTableWord 36 0x000000009 = none ∧ decodeTableWord 36 0x00000000F = none

/-- 30_encoding.md R96: the line printed for an operation that has one reads back as that operation. The form of the argument
that is printed is the model's choice (notes/assumptions/14.md). -/
def Obligations.TextLinesReadBack : Prop :=
  ∀ i : Instr, i.textual = true → parseLine (printLine i) = some i

/-- 42_transaction.md R151: a step runs the decoded operation. In `IDLE` it is the one the request names, in `TXW` and `RX` the
one `OP` and `ARG` hold. -/
def Obligations.StepRunsDecodedOperation : Prop :=
  ∀ (s : State) (i : Instr), s.pins.rst = false → s.blk.err.toNat ≤ 8 →
    (s.blk.fsm = .idle → s.pins.req = some (encode i) → step s = exec i s) ∧
    (s.blk.fsm = .txw ∨ s.blk.fsm = .rx → (encode i) = ⟨s.blk.op, s.blk.arg⟩ → step s = exec i s)

/-- 10_state.md R21, 93_implementation_defined.md part 2: where a step stops, and that it stops nowhere else. The faults for a
reserved `OP` while busy and for a `TIMER` beyond the window are the model's choice (notes/assumptions/9.md). -/
def Obligations.StepStopsOnlyInUnreachableStates : Prop :=
  ∀ s : State, (∀ r, step s ≠ .refused r) ∧
    ∀ f, step s = .fault f ↔ s.pins.rst = false ∧
      ((f = .errReserved ∧ 8 < s.blk.err.toNat) ∨
       (s.blk.err.toNat ≤ 8 ∧
        ((f = .fsmUnused ∧ s.blk.fsm = .unused) ∨
         (f = .opReservedBusy ∧ (s.blk.fsm = .txw ∨ s.blk.fsm = .rx) ∧ 9 ≤ s.blk.op.toNat) ∨
         (f = .timerBeyondWindow ∧ s.blk.fsm = .rx ∧ s.blk.op.toNat ≤ 8 ∧
           s.cfg.timeoutCycles < s.blk.timer.toNat))))

/-! Accept and admission -/

/-- 42_transaction.md R154, R155, 30_encoding.md R89: every admitted request of the nine operations starts its transaction in the
accept cycle. With a template, `TXFRAME` is its encoding and `FSM` is `TXW`; without one (`WAIT_FOR_DATA`) `FSM` is
`RX`. Nothing else of the registers changes. -/
def Obligations.AdmittedRequestStarts : Prop :=
  ∀ (i : Instr) (s : State), InState s .idle → specAdmit (encode i).op (encode i).arg = .ok →
    exec i s = .next (s.advance
      (match specTemplate (encode i).op (encode i).arg with
       | some body =>
         { accepted s.blk (encode i).op (encode i).arg with fsm := .txw, txFrame := encodeFrame body }
       | none => { accepted s.blk (encode i).op (encode i).arg with fsm := .rx }))

/-- 43_operations.md R190, 42_transaction.md R155: a request that fails admission completes in its accept cycle with that error.
`FSM` stays `IDLE`, no write begins, and under `Hold` no byte is consumed. -/
def Obligations.RefusedArgumentCompletesAtOnce : Prop :=
  ∀ (i : Instr) (s : State), InState s .idle → specAdmit (encode i).op (encode i).arg ≠ .ok →
    exec i s = .next (s.advance (failed (accepted s.blk (encode i).op (encode i).arg)
      (specAdmit (encode i).op (encode i).arg).bits)) ∧
    s.writeBegins = false ∧ (s.cfg.rxIdlePolicy = .hold → s.byteTaken = false)

/-- 43_operations.md R198: which arguments `SET_WORK_PERIOD` refuses. The whole signed value decides, not its low byte. -/
def Obligations.WorkPeriodRange : Prop :=
  ∀ (a : Word) (s : State), InState s .idle →
    ∃ t, exec (.setWorkPeriod a) s = .next t ∧
      ((0 ≤ a.toInt ∧ a.toInt ≤ 30) → t.blk.fsm = .txw ∧ t.blk.err = s.blk.err ∧
        t.blk.txFrame[4] = BitVec.ofInt 8 a.toInt) ∧
      (¬(0 ≤ a.toInt ∧ a.toInt ≤ 30) → t.blk.fsm = .idle ∧ t.blk.err = 6 ∧ t.blk.done = true ∧ t.blk.arg = a ∧
        t.env.writes = s.env.writes)

/-- 30_encoding.md R92: a request with a reserved code is accepted and completes in its accept cycle with code 7. It begins no
write, and under `Hold` no byte is consumed (under `Drop` an idle block discards an offered byte whatever the
request: notes/assumptions/12.md). -/
def Obligations.ReservedCodeCompletesMalformed : Prop :=
  ∀ (s : State) (r : Request), InState s .idle → s.blk.err.toNat ≤ 8 → s.pins.req = some r → 9 ≤ r.op.toNat →
    step s = .next (s.advance (failed (accepted s.blk r.op r.arg) 7)) ∧
    s.writeBegins = false ∧ (s.cfg.rxIdlePolicy = .hold → s.byteTaken = false)

/-- 30_encoding.md R91: the six other operations ignore the argument. It is latched into `ARG` and has no other effect. -/
def Obligations.IgnoredArgumentOnlyLatched : Prop :=
  ∀ op ∈ [Instr.getFirmware, Instr.getWorkMode, Instr.getReportingMode, Instr.getWorkPeriod, Instr.queryData,
      Instr.waitForData], ∀ (a b : Word) (s : State), s.pins.rst = false →
    (s.blk.fsm = .idle → ∃ t, exec (op a) s = .next t ∧ t.blk.arg = a ∧
      exec (op b) s = .next { t with blk := { t.blk with arg := b } }) ∧
    (s.blk.fsm ≠ .idle → exec (op a) s = exec (op b) s)

/-! The operations' results -/

/-- 43_operations.md R192: the result of `GET_FIRMWARE`, and that nothing else changes. -/
def Obligations.FirmwareResult : Prop :=
  ∀ (a : Word) (s : State), ValidFrameEnds s →
    exec (.getFirmware a) s = .next (s.advance
      { frameEnded s.blk 0 with
        val0 := s.blk.rxBuf[3].setWidth 16
        val1 := s.blk.rxBuf[4].setWidth 16
        val2 := s.blk.rxBuf[5].setWidth 16 })

/-- 43_operations.md R193, R195, R197: the result of the three other get operations, byte 4 as it is. -/
def Obligations.GetByteResult : Prop :=
  ∀ op ∈ [Instr.getWorkMode, Instr.getReportingMode, Instr.getWorkPeriod], ∀ (a : Word) (s : State), ValidFrameEnds s →
    exec (op a) s = .next (s.advance
      { frameEnded s.blk 0 with val0 := s.blk.rxBuf[4].setWidth 16, val1 := 0, val2 := 0 })

/-- 43_operations.md R194, R196, R198, R201: the result of a set operation whose argument byte the response echoes. -/
def Obligations.SetEchoResult : Prop :=
  ∀ op ∈ [Instr.setWorkMode, Instr.setReportingMode, Instr.setWorkPeriod], ∀ (a : Word) (s : State), ValidFrameEnds s →
    s.blk.rxBuf[4] = a.extractLsb' 0 8 →
    exec (op a) s = .next (s.advance
      { frameEnded s.blk 0 with val0 := s.blk.rxBuf[4].setWidth 16, val1 := 0, val2 := 0 })

/-- 43_operations.md R201: a set operation whose argument byte the response does not echo ends with code 5 and writes no
result. No other byte of the response takes part. -/
def Obligations.SetMismatchResult : Prop :=
  ∀ op ∈ [Instr.setWorkMode, Instr.setReportingMode, Instr.setWorkPeriod], ∀ (a : Word) (s : State), ValidFrameEnds s →
    s.blk.rxBuf[4] ≠ a.extractLsb' 0 8 →
    exec (op a) s = .next (s.advance (frameEnded s.blk 5))

/-- 43_operations.md R199, R200: the result of the two measurement operations, the counts little-endian and the time of the
completion cycle. -/
def Obligations.MeasurementResult : Prop :=
  ∀ op ∈ [Instr.queryData, Instr.waitForData], ∀ (a : Word) (s : State), ValidFrameEnds s →
    exec (op a) s = .next (s.advance
      { frameEnded s.blk 0 with
        val0 := BitVec.ofNat 16 (s.blk.rxBuf[2].toNat + 256 * s.blk.rxBuf[3].toNat)
        val1 := BitVec.ofNat 16 (s.blk.rxBuf[4].toNat + 256 * s.blk.rxBuf[5].toNat)
        val2 := 0
        ts := s.pins.timeIn })

/-- 43_operations.md R191: a valid frame is interpreted by the table of R191, whatever the operation. -/
def Obligations.InterpretationFollowsTable : Prop :=
  ∀ (i : Instr) (s : State), ValidFrameEnds s →
    ∃ v, specInterpret (encode i).op (encode i).arg s.blk.rxBuf s.pins.timeIn = some v ∧
      exec i s = .next (s.advance
        (match v.writes with
         | some w =>
           { frameEnded s.blk v.code.bits with
             val0 := w.val0, val1 := w.val1, val2 := w.val2, ts := w.ts.getD s.blk.ts }
         | none => frameEnded s.blk v.code.bits))

/-! The bounded read -/

/-- 41_frame_codec.md R133: a delimiter that is not the tenth byte ends the read with code 3. -/
def Obligations.WrongLengthResult : Prop :=
  ∀ (i : Instr) (s : State), Reading s → s.pins.rx = some 0xAB → s.blk.rxLen ≠ 9 →
    exec i s = .next (s.advance
      { failed s.blk 3 with
        rxBuf := s.blk.rxBuf.setIfInBounds s.blk.rxLen.toNat 0xAB
        rxLen := BitVec.ofNat 8 (min (s.blk.rxLen.toNat + 1) 255)
        txReqQ := false })

/-- 41_frame_codec.md R134: ten bytes whose byte 8 is not the sum of bytes 2 to 7 end the read with code 4. Bytes 0, 1, 6 and 7
are not compared with anything (R137). -/
def Obligations.WrongChecksumResult : Prop :=
  ∀ (i : Instr) (s : State), Reading s → s.pins.rx = some 0xAB → s.blk.rxLen = 9 →
    s.blk.rxBuf[2] + s.blk.rxBuf[3] + s.blk.rxBuf[4] + s.blk.rxBuf[5] + s.blk.rxBuf[6] + s.blk.rxBuf[7]
      ≠ s.blk.rxBuf[8] →
    exec i s = .next (s.advance (frameEnded s.blk 4))

/-- 42_transaction.md R161: a byte taken is stored below index 10 and counted up to 255, whether or not it ends the read. -/
def Obligations.ByteCapture : Prop :=
  ∀ (i : Instr) (s : State) (x : Byte), Reading s → s.pins.rx = some x →
    ∃ t, exec i s = .next t ∧
      (∀ j (h : j < 10), t.blk.rxBuf[j] = if j = s.blk.rxLen.toNat then x else s.blk.rxBuf[j]) ∧
      t.blk.rxLen.toNat = min (s.blk.rxLen.toNat + 1) 255 ∧ s.byteTaken = true

/-- 42_transaction.md R162: a byte other than the delimiter continues the read. -/
def Obligations.ReadContinues : Prop :=
  ∀ (i : Instr) (s : State) (x : Byte), Reading s → s.pins.rx = some x → x ≠ 0xAB →
    exec i s = .next (s.advance
      { s.blk with
        rxBuf := s.blk.rxBuf.setIfInBounds s.blk.rxLen.toNat x
        rxLen := BitVec.ofNat 8 (min (s.blk.rxLen.toNat + 1) 255)
        timer := s.blk.timer + 1, txReqQ := false, pulse := false })

/-- 42_transaction.md R163: an idle read cycle counts, and every cycle that does not end the read counts, so the timer is never
reset during a read. -/
def Obligations.TimerCountsReadCycles : Prop :=
  (∀ (i : Instr) (s : State), Reading s → s.pins.rx = none →
    exec i s = .next (s.advance { s.blk with timer := s.blk.timer + 1, txReqQ := false, pulse := false })) ∧
  (∀ (i : Instr) (s t : State), InState s .rx → exec i s = .next t → t.blk.fsm = .rx →
    t.blk.timer = s.blk.timer + 1)

/-- 42_transaction.md R159: at `TIMER = TIMEOUT_CYCLES` the read ends with code 2. `rx_ready` is 0: no byte is taken, nor is
`rx_err`. -/
def Obligations.ReadTimesOut : Prop :=
  ∀ (i : Instr) (s : State), InState s .rx → s.blk.timer.toNat = s.cfg.timeoutCycles →
    exec i s = .next (s.advance { failed s.blk 2 with txReqQ := false }) ∧
    s.outputs.rxReady = false ∧ s.byteTaken = false ∧ s.takesRxErr = false

/-- 42_transaction.md R160: a read failure ends the read with code 1 and takes no byte, even if one is offered: the byte stays
in the channel. The captured bytes stay. -/
def Obligations.ReadFailure : Prop :=
  ∀ (i : Instr) (s : State), InState s .rx → s.blk.timer.toNat < s.cfg.timeoutCycles → s.pins.rxErr = true →
    exec i s = .next (s.advance { failed s.blk 1 with txReqQ := false }) ∧
    s.takesRxErr = true ∧ s.byteTaken = false ∧ s.nextEnv.chanIn = s.inbound

/-! The write -/

/-- 42_transaction.md R157: what each answer does in `TXW`, for every operation. No byte is taken in `TXW`. -/
def Obligations.WriteAnswerResult : Prop :=
  ∀ (i : Instr) (s : State), InState s .txw →
    s.byteTaken = false ∧
    exec i s = .next (s.advance
      (match s.pins.tx with
       | none => { s.blk with txReqQ := true, pulse := false }
       | some a =>
         if a.ioerr = true then { failed s.blk 1 with txReqQ := true }
         else if a.count ≠ 19 then { failed s.blk 8 with txReqQ := true }
         else { s.blk with fsm := .rx, timer := 0, txReqQ := true, pulse := false }))

/-- 42_transaction.md R158, 70_reset_and_hazards.md R290: a channel that never answers a write leaves the block in `TXW` for
ever, whatever the host requests; only a reset ends that state. -/
def Obligations.UnansweredWriteHangs : Prop :=
  (∀ (n : Nat) (s : State), s.blk.fsm = .txw → s.blk.op.toNat ≤ 8 → s.blk.err.toNat ≤ 8 →
    NextDrives s n (fun d => d.rst = false ∧ d.answer = none) →
    ∃ t, runFor n s = .next t ∧ t.blk.fsm = .txw ∧ t.blk.txFrame = s.blk.txFrame) ∧
  (∀ s : State, s.blk.fsm = .txw → s.pins.rst = true → ∃ t, step s = .next t ∧ t.blk.fsm = .idle)

/-- 20_memory.md R66: the read begins only after the channel has answered the write with 19 bytes written (or on accept, for
the operation that writes nothing); a failed write makes no read; in `TXW` no byte is consumed. -/
def Obligations.WriteBeforeRead : Prop :=
  ∀ s t : State, step s = .next t →
    (s.blk.fsm ≠ .rx → t.blk.fsm = .rx →
      (s.blk.fsm = .txw ∧ s.pins.tx = some ⟨false, 19⟩) ∨
      (s.blk.fsm = .idle ∧ ∃ a, s.pins.req = some ⟨8, a⟩)) ∧
    (s.blk.fsm = .txw → s.byteTaken = false ∧ s.outputs.rxReady = false) ∧
    (s.blk.fsm = .txw → t.blk.err ≠ s.blk.err → t.blk.fsm = .idle)

/-- 10_state.md R27, 42_transaction.md R156, 20_memory.md R68: a write request is made in the first `TXW` cycle and in no other, and it
hands the channel `TXFRAME`. -/
def Obligations.OneWritePerTransaction : Prop :=
  ∀ s t : State, step s = .next t →
    (s.blk.fsm = .txw → s.pins.rst = false → s.blk.txReqQ = false →
      t.env.writes = s.env.writes ++ [s.blk.txFrame] ∧ t.blk.txReqQ = true) ∧
    (s.blk.fsm = .txw → s.blk.txReqQ = true →
      t.env.writes = s.env.writes ∧ (t.blk.fsm = .txw → t.blk.txReqQ = true)) ∧
    (s.blk.fsm ≠ .txw → t.env.writes = s.env.writes ∧ (t.blk.fsm = .txw → t.blk.txReqQ = false))

/-! The idle block and the reset -/

/-- 42_transaction.md R152: in `IDLE` without a request no register changes but `TXREQ_Q` and `PULSE`. -/
def Obligations.QuietIdleCycle : Prop :=
  ∀ s : State, InState s .idle → s.blk.err.toNat ≤ 8 → s.pins.req = none →
    step s = .next (s.advance { s.blk with txReqQ := false, pulse := false })

/-- 42_transaction.md R153: inbound bytes while `IDLE`. Under `Hold` they stay in the channel; under `Drop` an offered byte is
consumed and discarded, `rx_err` or not, and no register changes for it: without a request only `TXREQ_Q` and `PULSE` are
written, and with one the capture is cleared, not filled. That the `Drop` clause holds in an accept cycle too, also of a refused
or reserved request, is the model's reading (notes/assumptions/12.md, DEDUCED). -/
def Obligations.IdleBytesByPolicy : Prop :=
  ∀ s t : State, InState s .idle → step s = .next t →
    (s.cfg.rxIdlePolicy = .hold → s.outputs.rxReady = false ∧ s.takesRxErr = false ∧ t.env.chanIn = s.inbound) ∧
    (s.cfg.rxIdlePolicy = .drop → s.outputs.rxReady = true ∧ s.takesRxErr = false ∧
      (∀ x, s.pins.rx = some x → s.inbound = x :: t.env.chanIn) ∧ (s.pins.rx = none → t.env.chanIn = s.inbound)) ∧
    (s.pins.req = none → t.blk = { s.blk with txReqQ := false, pulse := false }) ∧
    t.blk.rxBuf = (if s.pins.req.isSome then Vector.replicate 10 0 else s.blk.rxBuf) ∧
    t.blk.rxLen = (if s.pins.req.isSome then 0 else s.blk.rxLen)

/-- 70_reset_and_hazards.md R280, 10_state.md R42: a reset cycle, in any state. Every register takes its reset value, and a second
reset cycle leaves them there; nothing is accepted, taken or written. -/
def Obligations.ResetCycle : Prop :=
  ∀ s : State, s.pins.rst = true →
    ∃ t, step s = .next t ∧
      t.blk =
        { fsm := .idle, op := 0, arg := 0
          txFrame := #v[0, 0, 0, 0, 0, 0, 0, 0, 0, 0, 0, 0, 0, 0, 0, 0, 0, 0, 0]
          rxBuf := #v[0, 0, 0, 0, 0, 0, 0, 0, 0, 0]
          rxLen := 0, timer := 0, err := 0, done := false, pulse := false, txReqQ := false
          val0 := 0, val1 := 0, val2 := 0, ts := 0 } ∧
      s.outputs.reqReady = false ∧ s.outputs.txReq = false ∧ s.outputs.rxReady = false ∧
      s.byteTaken = false ∧ s.writeBegins = false ∧
      (t.pins.rst = true → ∃ t', step t = .next t' ∧ t'.blk = t.blk)

/-- 70_reset_and_hazards.md R281: a reset abandons the operation without a completion, and does not touch the channel: the bytes it
holds stay, and a write it has begun is still to be answered. -/
def Obligations.ResetLeavesChannel : Prop :=
  ∀ (i : Instr) (s : State), s.pins.rst = true →
    ∃ t, exec i s = .next t ∧ t.outputs.rspPulse = false ∧ t.blk.done = false ∧
      t.env.chanIn = s.inbound ∧ t.env.writes = s.env.writes ∧
      (s.drive.answer = none → t.env.owed = s.env.owed)

/-! Completion, flags and views -/

/-- 60_exceptions.md R252: `Complete(code, writes)`, register by register. -/
def Obligations.CompleteRule : Prop :=
  ∀ (s : State) (b : Block) (v : Verdict),
    (b.complete v).err = v.code.bits ∧ (b.complete v).done = true ∧ (b.complete v).fsm = .idle ∧
    (s.advance (b.complete v)).outputs.rspPulse = true ∧
    (∀ w, v = ⟨.ok, some w⟩ → (b.complete v).val0 = w.val0 ∧ (b.complete v).val1 = w.val1 ∧
      (b.complete v).val2 = w.val2 ∧ (b.complete v).ts = w.ts.getD b.ts) ∧
    ((v.code ≠ .ok ∨ v.writes = none) → (b.complete v).val0 = b.val0 ∧ (b.complete v).val1 = b.val1 ∧
      (b.complete v).val2 = b.val2 ∧ (b.complete v).ts = b.ts) ∧
    (b.complete v).rxBuf = b.rxBuf ∧ (b.complete v).rxLen = b.rxLen ∧ (b.complete v).op = b.op ∧
    (b.complete v).arg = b.arg ∧ (b.complete v).timer = b.timer ∧ (b.complete v).txFrame = b.txFrame

/-- 10_state.md R31, R32: `PULSE` is 1 after a cycle exactly when an operation ended in it; `DONE` is set with it, cleared by an
accept, and otherwise kept. -/
def Obligations.PulseAndDoneFollowCompletion : Prop :=
  ∀ s t : State, s.pins.rst = false → step s = .next t →
    (t.blk.pulse = true ↔ t.blk.fsm = .idle ∧ (s.blk.fsm ≠ .idle ∨ s.pins.req ≠ none)) ∧
    t.outputs.rspPulse = t.blk.pulse ∧
    (t.blk.pulse = true → t.blk.done = true) ∧
    (t.blk.pulse = false → s.blk.fsm = .idle → s.pins.req ≠ none → t.blk.done = false) ∧
    (t.blk.pulse = false → (s.blk.fsm ≠ .idle ∨ s.pins.req = none) → t.blk.done = s.blk.done)

/-- 10_state.md R30, R33, R34: outside a reset, `ERR` and the result registers change only in a completion cycle; an error
completion leaves the results; `TS` changes only for the two data operations. -/
def Obligations.ResultsChangeOnlyAtCompletion : Prop :=
  ∀ s t : State, s.pins.rst = false → step s = .next t →
    (t.blk.pulse = false → t.blk.err = s.blk.err) ∧
    (t.blk.pulse = false ∨ t.blk.err ≠ 0 →
      t.blk.val0 = s.blk.val0 ∧ t.blk.val1 = s.blk.val1 ∧ t.blk.val2 = s.blk.val2 ∧ t.blk.ts = s.blk.ts) ∧
    (t.blk.ts ≠ s.blk.ts → (s.blk.op = 7 ∨ s.blk.op = 8) ∧ s.blk.fsm = .rx ∧ t.blk.ts = s.pins.timeIn)

/-- 10_state.md R22, R23: `OP` and `ARG` are written only when a request is accepted, with that request. -/
def Obligations.OpAndArgWrittenOnlyOnAccept : Prop :=
  ∀ s t : State, s.pins.rst = false → step s = .next t →
    (∀ r, s.blk.fsm = .idle → s.pins.req = some r → t.blk.op = r.op ∧ t.blk.arg = r.arg) ∧
    (s.blk.fsm ≠ .idle ∨ s.pins.req = none → t.blk.op = s.blk.op ∧ t.blk.arg = s.blk.arg)

/-- 10_state.md R39: the `STATUS` word, field by field, and its reset value. -/
def Obligations.StatusFields : Prop :=
  (∀ b : Block,
    ((csrRead b 0).getLsbD 0 = true ↔ b.fsm ≠ .idle) ∧
    (csrRead b 0).getLsbD 1 = b.done ∧
    (csrRead b 0).extractLsb' 2 2 = b.fsm.bits ∧
    (csrRead b 0).extractLsb' 4 4 = b.err ∧
    (csrRead b 0).extractLsb' 8 4 = b.op ∧
    (csrRead b 0).extractLsb' 12 20 = 0) ∧
  csrRead Block.reset 0 = 0

/-- 10_state.md R38: the register view, number by number; the bits above a narrower register are 0. -/
def Obligations.RegisterView : Prop :=
  ∀ b : Block,
    csrRead b 0x01 = 0#16 ++ b.val0 ∧ csrRead b 0x02 = 0#16 ++ b.val1 ∧ csrRead b 0x03 = 0#16 ++ b.val2 ∧
    csrRead b 0x05 ++ csrRead b 0x04 = b.ts ∧ csrRead b 0x06 = 0#24 ++ b.rxLen ∧ csrRead b 0x07 = b.arg ∧
    ∀ j (h : j < 10), csrRead b (BitVec.ofNat 5 (0x10 + j)) = 0#24 ++ b.rxBuf[j]

/-- 10_state.md R40: a register number that R38 does not assign reads 0, and reading it has no side effect: the next state does not
depend on `csr_addr`. -/
def Obligations.UnassignedNumbersReadZero : Prop :=
  (∀ (b : Block) (n : BitVec 5), (0x08 ≤ n.toNat ∧ n.toNat ≤ 0x0F) ∨ (0x1A ≤ n.toNat ∧ n.toNat ≤ 0x1F) →
    csrRead b n = 0) ∧
  (∀ (s : State) (d : Drive) (ds : List Drive) (n : BitVec 5), s.env.drives = d :: ds →
    step { s with env := { s.env with drives := { d with csrAddr := n } :: ds } } = step s)

/-- 10_state.md R41: the outputs as functions of the state. -/
def Obligations.OutputsFollowState : Prop :=
  ∀ s : State,
    (s.outputs.reqReady = true ↔ s.blk.fsm = .idle ∧ s.pins.rst = false) ∧
    (s.outputs.txReq = true ↔ s.blk.fsm = .txw ∧ s.pins.rst = false) ∧
    (s.outputs.rxReady = true ↔ s.pins.rst = false ∧
      ((s.blk.fsm = .rx ∧ s.blk.timer.toNat < s.cfg.timeoutCycles) ∨
       (s.blk.fsm = .idle ∧ s.cfg.rxIdlePolicy = .drop)))

/-! Frames: what stays as it is -/

/-- 42_transaction.md R151 to R164, 60_exceptions.md R252: what one cycle of any of the nine operations leaves unchanged. In the accept
cycle: the results, and `TXFRAME` unless a write starts. In `TXW`: everything but `FSM`, `TIMER` on entry to the read,
and the flags of a completion. In `RX`: `OP`, `ARG`, `TXFRAME`, every capture byte but the one at index `RXLEN` when
a byte is taken, `TIMER` in the last cycle, and the results unless the operation succeeds. -/
def Obligations.OperationFrame : Prop :=
  ∀ (i : Instr) (s t : State), s.pins.rst = false → exec i s = .next t →
    t.cfg = s.cfg ∧ (t.blk.txReqQ = true ↔ s.blk.fsm = .txw) ∧
    (s.blk.fsm = .idle →
      t.blk.val0 = s.blk.val0 ∧ t.blk.val1 = s.blk.val1 ∧ t.blk.val2 = s.blk.val2 ∧ t.blk.ts = s.blk.ts ∧
      (t.blk.fsm ≠ .txw → t.blk.txFrame = s.blk.txFrame) ∧ (t.blk.fsm ≠ .idle → t.blk.err = s.blk.err)) ∧
    (s.blk.fsm = .txw →
      t.blk.op = s.blk.op ∧ t.blk.arg = s.blk.arg ∧ t.blk.txFrame = s.blk.txFrame ∧ t.blk.rxBuf = s.blk.rxBuf ∧
      t.blk.rxLen = s.blk.rxLen ∧ t.blk.val0 = s.blk.val0 ∧ t.blk.val1 = s.blk.val1 ∧ t.blk.val2 = s.blk.val2 ∧
      t.blk.ts = s.blk.ts ∧ (t.blk.fsm ≠ .rx → t.blk.timer = s.blk.timer) ∧
      (t.blk.fsm ≠ .idle → t.blk.err = s.blk.err ∧ t.blk.done = s.blk.done)) ∧
    (s.blk.fsm = .rx →
      t.blk.op = s.blk.op ∧ t.blk.arg = s.blk.arg ∧ t.blk.txFrame = s.blk.txFrame ∧
      (∀ j (h : j < 10), j ≠ s.blk.rxLen.toNat ∨ s.byteTaken = false → t.blk.rxBuf[j] = s.blk.rxBuf[j]) ∧
      (s.byteTaken = false → t.blk.rxLen = s.blk.rxLen) ∧
      (t.blk.fsm = .idle → t.blk.timer = s.blk.timer) ∧
      (t.blk.fsm ≠ .idle → t.blk.err = s.blk.err ∧ t.blk.done = s.blk.done) ∧
      (t.blk.fsm ≠ .idle ∨ t.blk.err ≠ 0 →
        t.blk.val0 = s.blk.val0 ∧ t.blk.val1 = s.blk.val1 ∧ t.blk.val2 = s.blk.val2 ∧ t.blk.ts = s.blk.ts) ∧
      ((encode i).op ≠ 7 → (encode i).op ≠ 8 → t.blk.ts = s.blk.ts))

/-- 20_memory.md R67, 10_state.md R28: a cycle takes the oldest inbound byte or none; no byte is reordered, duplicated or skipped. -/
def Obligations.BytesConsumedInOrder : Prop :=
  ∀ s t : State, step s = .next t →
    (s.byteTaken = false ∧ t.env.chanIn = s.inbound) ∨
    (∃ x, s.byteTaken = true ∧ s.pins.rx = some x ∧ s.inbound = x :: t.env.chanIn)

/-- 10_state.md R27, R28, R35, 42_transaction.md R153, 70_reset_and_hazards.md R280, R285: the registers after a step depend on nothing but the
registers, the configuration, `rst`, and the pins the current state reads: a request only in `IDLE`, a write's
answer only in `TXW`, a byte, `rx_err` and `time_in` only in `RX`. What the channel holds is seen through the pins alone. -/
def Obligations.BlockSeesOnlyItsPins : Prop :=
  ∀ s s' : State, s.cfg = s'.cfg → s.blk = s'.blk → s.pins.rst = s'.pins.rst →
    (s.pins.rst = false → s.blk.fsm = .idle → s.pins.req = s'.pins.req) →
    (s.pins.rst = false → s.blk.fsm = .txw → s.pins.tx = s'.pins.tx) →
    (s.pins.rst = false → s.blk.fsm = .rx →
      s.pins.rx = s'.pins.rx ∧ s.pins.rxErr = s'.pins.rxErr ∧ s.pins.timeIn = s'.pins.timeIn) →
    (∀ t, step s = .next t → ∃ t', step s' = .next t' ∧ t'.blk = t.blk) ∧
    (∀ f, step s = .fault f → step s' = .fault f)

/-! Checksum and frames -/

/-- 40_checksum.md R120: the checksum of any sequence is the running 8-bit sum that discards every carry. -/
def Obligations.ChecksumIsRunningSum : Prop :=
  ∀ s : List Byte, checksum s = s.foldl (· + ·) 0 ∧ (checksum s).toNat = (s.map BitVec.toNat).sum % 256

/-- 40_checksum.md R121: the checksum does not see the order of its bytes, nor a change of two bytes that adds `k` to one and
subtracts `k` from the other. -/
def Obligations.ChecksumIgnoresOrder : Prop :=
  (∀ s s' : List Byte, s.Perm s' → checksum s = checksum s') ∧
  (∀ (p q r : List Byte) (x y k : Byte),
    checksum (p ++ [x] ++ q ++ [y] ++ r) = checksum (p ++ [x + k] ++ q ++ [y - k] ++ r))

/-- 40_checksum.md R123: zero bytes do not change the checksum, so a command frame's checksum is that of its three variable bytes
and the wildcard. -/
def Obligations.ZeroPadKeepsChecksum : Prop :=
  (∀ s : List Byte, checksum (s ++ [0x00]) = checksum s) ∧
  (∀ cls rw vv : Byte, ((encodeFrame (commandBody cls rw vv))[17]).toNat =
    (cls.toNat + rw.toNat + vv.toNat + 254) % 256)

/-- 30_encoding.md R80 to R83, R86, R87: the bytes of every command frame an admitted request sends, the class byte by the table
of R82. -/
def Obligations.CommandFrameLayout : Prop :=
  ∀ (i : Instr) (s : State), InState s .idle → specAdmit (encode i).op (encode i).arg = .ok → (encode i).op ≠ 8 →
    ∃ t, exec i s = .next t ∧ t.blk.fsm = .txw ∧
      t.blk.txFrame[0] = 0xAA ∧ t.blk.txFrame[1] = 0xB4 ∧
      t.blk.txFrame[2] =
        (match i with
         | .getFirmware _ => 0x07
         | .getWorkMode _ | .setWorkMode _ => 0x06
         | .getReportingMode _ | .setReportingMode _ => 0x02
         | .getWorkPeriod _ | .setWorkPeriod _ => 0x08
         | .queryData _ => 0x04
         | .waitForData _ => 0x00) ∧
      t.blk.txFrame[3] = (if i.usesArg then 0x01 else 0x00) ∧
      t.blk.txFrame[4] = (if i.usesArg then i.arg.extractLsb' 0 8 else 0x00) ∧
      (∀ j (h : j < 19), 5 ≤ j → j ≤ 14 → t.blk.txFrame[j] = 0) ∧
      t.blk.txFrame[15] = 0xFF ∧ t.blk.txFrame[16] = 0xFF ∧
      t.blk.txFrame[17] = checksum (slice t.blk.txFrame.toList 2 16) ∧ t.blk.txFrame[18] = 0xAB

/-- 30_encoding.md R98: the checksum byte of every frame the block can send, and that no such frame contains the delimiter
before its tail. -/
def Obligations.CommandFrameChecksums : Prop :=
  ∀ (i : Instr) (body : Body), specAdmit (encode i).op (encode i).arg = .ok →
    specTemplate (encode i).op (encode i).arg = some body →
    (encodeFrame body)[17] =
      (match i with
       | .getFirmware _ => 0x05
       | .getWorkMode _ => 0x04
       | .setWorkMode a => if a = 0 then 0x05 else 0x06
       | .getReportingMode _ => 0x00
       | .setReportingMode a => if a = 0 then 0x01 else 0x02
       | .getWorkPeriod _ => 0x06
       | .setWorkPeriod a => BitVec.ofNat 8 (0x07 + a.toNat)
       | .queryData _ => 0x02
       | .waitForData _ => 0x00) ∧
    ∀ j (h : j < 19), (encodeFrame body)[j] = 0xAB ↔ j = 18

/-- 30_encoding.md R89: two accept cycles that start a write of the same frame have accepted the same operation, and the same
argument where the operation sends it. So the frames the machine sends tell apart all requests that ask for different
things. -/
def Obligations.CommandFramesTellRequestsApart : Prop :=
  ∀ (i i' : Instr) (s s' t t' : State), InState s .idle → InState s' .idle →
    exec i s = .next t → exec i' s' = .next t' → t.blk.fsm = .txw → t'.blk.fsm = .txw →
    t.blk.txFrame = t'.blk.txFrame →
    (encode i).op = (encode i').op ∧ (i.usesArg = true → i = i')

/-- 41_frame_codec.md R136, 10_state.md R26: validating `RXBUF` and `RXLEN` gives the verdict of the unbounded capture; `RXLEN` is its
length, saturated; and a read that passes or fails by checksum has its only delimiter at byte 9. -/
def Obligations.BoundedCaptureGivesSameVerdict : Prop :=
  (∀ (b : Block) (r : Request) (raw : List Byte),
    let c := raw.foldl Block.capture (b.accept r)
    validate c.rxBuf c.rxLen = specValidate raw ∧ c.rxLen.toNat = min raw.length 255) ∧
  (∀ (b : Block) (r : Request) (pre : List Byte), (∀ x ∈ pre, x ≠ 0xAB) →
    let c := (pre ++ [0xAB]).foldl Block.capture (b.accept r)
    validate c.rxBuf c.rxLen = .ok ∨ validate c.rxBuf c.rxLen = .checksumError →
      c.rxBuf[9] = 0xAB ∧ ∀ j (h : j < 9), c.rxBuf[j] ≠ 0xAB)

/-- 44_value_decoder.md R240, R243: the two counts are unsigned 16-bit little-endian numbers of the four bytes. -/
def Obligations.CountsAreLittleEndian : Prop :=
  ∀ b0 b1 b2 b3 : Byte,
    (decodeValues b0 b1 b2 b3).1.toNat = b0.toNat + 256 * b1.toNat ∧
    (decodeValues b0 b1 b2 b3).2.toNat = b2.toNat + 256 * b3.toNat

/-! The whole machine -/

/-- The invariant holds right after reset, under the model's configuration at reset (notes/assumptions/1.md, 2.md) and with
its empty environment (notes/assumptions/4.md, 5.md). -/
def Obligations.ResetStateMeetsInvariant : Prop := Invariant State.reset

/-- Every step keeps the invariant, whatever host and channel do. -/
def Obligations.StepKeepsInvariant : Prop := ∀ s t : State, Invariant s → step s = .next t → Invariant t

/-- A machine that meets the invariant never stops: every step answers a next state. -/
def Obligations.InvariantNeverStops : Prop := ∀ s : State, Invariant s → ∃ t, step s = .next t

/-- 60_exceptions.md R255: no run from a reset ever stops, whatever host and channel do, and every state on it meets the
invariant. -/
def Obligations.RunsFromResetNeverStop : Prop :=
  ∀ (n : Nat) (s : State), Start s → ∃ t, runFor n s = .next t ∧ Invariant t ∧ t.cfg = s.cfg

/-- 42_transaction.md R166: a read ends within the window, whatever the channel does. With `TIMER = 0` that is at most
`TIMEOUT_CYCLES + 1` cycles. -/
def Obligations.ReadEndsWithinWindow : Prop :=
  ∀ s : State, Invariant s → s.blk.fsm = .rx →
    ∃ k t, k ≤ s.cfg.timeoutCycles - s.blk.timer.toNat + 1 ∧ runFor k s = .next t ∧ t.blk.fsm = .idle

/-- 42_transaction.md R166: a read that meets no delimiter, no read failure and no reset lasts the whole window and then ends with
code 2, neither earlier nor later. -/
def Obligations.ReadWithoutDelimiterTimesOut : Prop :=
  ∀ s : State, Invariant s → s.blk.fsm = .rx → (∀ x ∈ s.env.chanIn, x ≠ 0xAB) →
    NextDrives s (s.cfg.timeoutCycles - s.blk.timer.toNat + 1)
      (fun d => d.rst = false ∧ d.rxErr = false ∧ ∀ x ∈ d.arrive, x ≠ 0xAB) →
    (∃ t, runFor (s.cfg.timeoutCycles - s.blk.timer.toNat) s = .next t ∧ t.blk.fsm = .rx) ∧
    (∃ t, runFor (s.cfg.timeoutCycles - s.blk.timer.toNat + 1) s = .next t ∧
      t.blk.fsm = .idle ∧ t.blk.err = 2 ∧ t.blk.done = true ∧ t.blk.val0 = s.blk.val0)

/-- 42_transaction.md R150, 70_reset_and_hazards.md R294: the shortest transaction, end to end, of each of the eight operations that send
a frame. Accepted in cycle `c`, answered at once, with a whole valid frame in the channel, it ends in `c + 11`: one frame
was written, ten bytes were taken and the rest stays in the channel, and the results are those of R191. Whatever host and
channel do, no run from such an accept shows a success in fewer cycles. -/
def Obligations.ShortestTransaction : Prop :=
  (∀ (i : Instr) (body : Body) (s : State) (f : Capture) (rest : List Byte) (v : Verdict) (last : Drive),
    s.blk.fsm = .idle → s.blk.err.toNat ≤ 8 → 10 ≤ s.cfg.timeoutCycles → s.cfg.timeoutCycles < 2 ^ 32 →
    s.cfg.rxIdlePolicy = .hold →
    specAdmit (encode i).op (encode i).arg = .ok → specTemplate (encode i).op (encode i).arg = some body →
    (∀ j (h : j < 9), f[j] ≠ 0xAB) → f[9] = 0xAB → checksum [f[2], f[3], f[4], f[5], f[6], f[7]] = f[8] →
    s.env.chanIn = f.toList ++ rest →
    NextDrives s 12 (fun d => d.rst = false ∧ d.answer = some ⟨false, 19⟩ ∧ d.arrive = [] ∧ d.offer = true ∧
      d.rxErr = false) →
    s.pins.req = some (encode i) → s.env.drives[11]? = some last →
    specInterpret (encode i).op (encode i).arg f last.timeIn = some v →
    ∃ t, runFor 12 s = .next t ∧ t.blk.fsm = .idle ∧ t.blk.done = true ∧ t.blk.pulse = true ∧
      t.blk.err = v.code.bits ∧ t.blk.rxBuf = f ∧ t.blk.rxLen = 10 ∧
      t.env.writes = s.env.writes ++ [encodeFrame body] ∧ t.env.chanIn = rest ∧
      (∀ w, v.writes = some w → t.blk.val0 = w.val0 ∧ t.blk.val1 = w.val1 ∧ t.blk.val2 = w.val2 ∧
        t.blk.ts = w.ts.getD s.blk.ts) ∧
      (v.writes = none → t.blk.val0 = s.blk.val0 ∧ t.blk.val1 = s.blk.val1 ∧ t.blk.val2 = s.blk.val2 ∧
        t.blk.ts = s.blk.ts)) ∧
  (∀ (i : Instr) (k : Nat) (s t : State), InState s .idle → s.pins.req = some (encode i) →
    specAdmit (encode i).op (encode i).arg = .ok → (encode i).op ≠ 8 → 1 ≤ k → k ≤ 11 → runFor k s = .next t →
    t.blk.done = true → t.blk.err ≠ 0)

/-- 43_operations.md R200, 70_reset_and_hazards.md R294: the shortest `WAIT_FOR_DATA`, end to end: it ends in `c + 10`, and no frame is
written. Whatever host and channel do, no run from its accept shows a success in fewer cycles. -/
def Obligations.ShortestWaitForData : Prop :=
  (∀ (a : Word) (s : State) (f : Capture) (rest : List Byte) (last : Drive),
    s.blk.fsm = .idle → s.blk.err.toNat ≤ 8 → 10 ≤ s.cfg.timeoutCycles → s.cfg.timeoutCycles < 2 ^ 32 →
    s.cfg.rxIdlePolicy = .hold →
    (∀ j (h : j < 9), f[j] ≠ 0xAB) → f[9] = 0xAB → checksum [f[2], f[3], f[4], f[5], f[6], f[7]] = f[8] →
    s.env.chanIn = f.toList ++ rest →
    NextDrives s 11 (fun d => d.rst = false ∧ d.arrive = [] ∧ d.offer = true ∧ d.rxErr = false) →
    s.pins.req = some (encode (.waitForData a)) → s.env.drives[10]? = some last →
    ∃ t, runFor 11 s = .next t ∧ t.blk.fsm = .idle ∧ t.blk.done = true ∧ t.blk.pulse = true ∧ t.blk.err = 0 ∧
      t.blk.rxBuf = f ∧ t.env.writes = s.env.writes ∧ t.env.chanIn = rest ∧
      t.blk.val0 = f[3] ++ f[2] ∧ t.blk.val1 = f[5] ++ f[4] ∧ t.blk.val2 = 0 ∧ t.blk.ts = last.timeIn) ∧
  (∀ (a : Word) (k : Nat) (s t : State), InState s .idle → s.pins.req = some (encode (.waitForData a)) →
    1 ≤ k → k ≤ 10 → runFor k s = .next t → t.blk.done = true → t.blk.err ≠ 0)

/-- 20_memory.md R69: the results are stable from the completion to the next accept. -/
def Obligations.ResultsStableUntilNextAccept : Prop :=
  ∀ (n : Nat) (s : State), s.blk.fsm = .idle → s.blk.err.toNat ≤ 8 →
    NextDrives s n (fun d => d.rst = false ∧ d.req = none) →
    ∃ t, runFor n s = .next t ∧ t.blk.fsm = .idle ∧ t.blk.err = s.blk.err ∧ t.blk.done = s.blk.done ∧
      t.blk.val0 = s.blk.val0 ∧ t.blk.val1 = s.blk.val1 ∧ t.blk.val2 = s.blk.val2 ∧ t.blk.ts = s.blk.ts ∧
      t.blk.rxBuf = s.blk.rxBuf ∧ t.blk.rxLen = s.blk.rxLen

/-- 00_scope.md R5, 93_implementation_defined.md part 2: a configuration is made of exactly the parameters the spec allows. -/
def Obligations.ConfigurationRefusedAtConstruction : Prop :=
  ∀ (clk t : Nat) (p : RxIdlePolicy),
    (∀ c, Config.make clk t p = .ok c ↔ c = ⟨clk, t, p⟩ ∧ 0 < clk ∧ 1 ≤ t ∧ t < 2 ^ 32) ∧
    (∀ c, Config.make clk t p = .ok c → c.wf = true)
end

