-- ==== Sys2Proof/Laws/State.lean ====
section
/-! SUPPORT. One lemma per field per update of the registers and of the state, all true by rfl, so that no proof unfolds a record
update. -/

namespace Sys2Proof.Machine

variable (s : State) (b : Block)

/-! `State.ticked` -/

@[simp] theorem State.ticked_fsm : (s.ticked).fsm = s.blk.fsm := rfl
@[simp] theorem State.ticked_op : (s.ticked).op = s.blk.op := rfl
@[simp] theorem State.ticked_arg : (s.ticked).arg = s.blk.arg := rfl
@[simp] theorem State.ticked_txFrame : (s.ticked).txFrame = s.blk.txFrame := rfl
@[simp] theorem State.ticked_rxBuf : (s.ticked).rxBuf = s.blk.rxBuf := rfl
@[simp] theorem State.ticked_rxLen : (s.ticked).rxLen = s.blk.rxLen := rfl
@[simp] theorem State.ticked_timer : (s.ticked).timer = s.blk.timer := rfl
@[simp] theorem State.ticked_err : (s.ticked).err = s.blk.err := rfl
@[simp] theorem State.ticked_done : (s.ticked).done = s.blk.done := rfl
@[simp] theorem State.ticked_pulse : (s.ticked).pulse = false := rfl
@[simp] theorem State.ticked_txReqQ : (s.ticked).txReqQ = txReq s.blk s.pins.rst := rfl
@[simp] theorem State.ticked_val0 : (s.ticked).val0 = s.blk.val0 := rfl
@[simp] theorem State.ticked_val1 : (s.ticked).val1 = s.blk.val1 := rfl
@[simp] theorem State.ticked_val2 : (s.ticked).val2 = s.blk.val2 := rfl
@[simp] theorem State.ticked_ts : (s.ticked).ts = s.blk.ts := rfl

/-! `Block.performWrites` -/

@[simp] theorem Block.performWrites_fsm (w : Writes) : (b.performWrites w).fsm = b.fsm := rfl
@[simp] theorem Block.performWrites_op (w : Writes) : (b.performWrites w).op = b.op := rfl
@[simp] theorem Block.performWrites_arg (w : Writes) : (b.performWrites w).arg = b.arg := rfl
@[simp] theorem Block.performWrites_txFrame (w : Writes) : (b.performWrites w).txFrame = b.txFrame := rfl
@[simp] theorem Block.performWrites_rxBuf (w : Writes) : (b.performWrites w).rxBuf = b.rxBuf := rfl
@[simp] theorem Block.performWrites_rxLen (w : Writes) : (b.performWrites w).rxLen = b.rxLen := rfl
@[simp] theorem Block.performWrites_timer (w : Writes) : (b.performWrites w).timer = b.timer := rfl
@[simp] theorem Block.performWrites_err (w : Writes) : (b.performWrites w).err = b.err := rfl
@[simp] theorem Block.performWrites_done (w : Writes) : (b.performWrites w).done = b.done := rfl
@[simp] theorem Block.performWrites_pulse (w : Writes) : (b.performWrites w).pulse = b.pulse := rfl
@[simp] theorem Block.performWrites_txReqQ (w : Writes) : (b.performWrites w).txReqQ = b.txReqQ := rfl
@[simp] theorem Block.performWrites_val0 (w : Writes) : (b.performWrites w).val0 = w.val0 := rfl
@[simp] theorem Block.performWrites_val1 (w : Writes) : (b.performWrites w).val1 = w.val1 := rfl
@[simp] theorem Block.performWrites_val2 (w : Writes) : (b.performWrites w).val2 = w.val2 := rfl
@[simp] theorem Block.performWrites_ts (w : Writes) : (b.performWrites w).ts = w.ts.getD b.ts := rfl

/-! `Block.endOperation` -/

@[simp] theorem Block.endOperation_fsm (c : Code) : (b.endOperation c).fsm = .idle := rfl
@[simp] theorem Block.endOperation_op (c : Code) : (b.endOperation c).op = b.op := rfl
@[simp] theorem Block.endOperation_arg (c : Code) : (b.endOperation c).arg = b.arg := rfl
@[simp] theorem Block.endOperation_txFrame (c : Code) : (b.endOperation c).txFrame = b.txFrame := rfl
@[simp] theorem Block.endOperation_rxBuf (c : Code) : (b.endOperation c).rxBuf = b.rxBuf := rfl
@[simp] theorem Block.endOperation_rxLen (c : Code) : (b.endOperation c).rxLen = b.rxLen := rfl
@[simp] theorem Block.endOperation_timer (c : Code) : (b.endOperation c).timer = b.timer := rfl
@[simp] theorem Block.endOperation_err (c : Code) : (b.endOperation c).err = c.bits := rfl
@[simp] theorem Block.endOperation_done (c : Code) : (b.endOperation c).done = true := rfl
@[simp] theorem Block.endOperation_pulse (c : Code) : (b.endOperation c).pulse = true := rfl
@[simp] theorem Block.endOperation_txReqQ (c : Code) : (b.endOperation c).txReqQ = b.txReqQ := rfl
@[simp] theorem Block.endOperation_val0 (c : Code) : (b.endOperation c).val0 = b.val0 := rfl
@[simp] theorem Block.endOperation_val1 (c : Code) : (b.endOperation c).val1 = b.val1 := rfl
@[simp] theorem Block.endOperation_val2 (c : Code) : (b.endOperation c).val2 = b.val2 := rfl
@[simp] theorem Block.endOperation_ts (c : Code) : (b.endOperation c).ts = b.ts := rfl

/-! `Block.accept` -/

@[simp] theorem Block.accept_fsm (r : Request) : (b.accept r).fsm = b.fsm := rfl
@[simp] theorem Block.accept_op (r : Request) : (b.accept r).op = r.op := rfl
@[simp] theorem Block.accept_arg (r : Request) : (b.accept r).arg = r.arg := rfl
@[simp] theorem Block.accept_txFrame (r : Request) : (b.accept r).txFrame = b.txFrame := rfl
@[simp] theorem Block.accept_rxBuf (r : Request) : (b.accept r).rxBuf = Vector.replicate 10 0 := rfl
@[simp] theorem Block.accept_rxLen (r : Request) : (b.accept r).rxLen = 0 := rfl
@[simp] theorem Block.accept_timer (r : Request) : (b.accept r).timer = 0 := rfl
@[simp] theorem Block.accept_err (r : Request) : (b.accept r).err = b.err := rfl
@[simp] theorem Block.accept_done (r : Request) : (b.accept r).done = false := rfl
@[simp] theorem Block.accept_pulse (r : Request) : (b.accept r).pulse = b.pulse := rfl
@[simp] theorem Block.accept_txReqQ (r : Request) : (b.accept r).txReqQ = b.txReqQ := rfl
@[simp] theorem Block.accept_val0 (r : Request) : (b.accept r).val0 = b.val0 := rfl
@[simp] theorem Block.accept_val1 (r : Request) : (b.accept r).val1 = b.val1 := rfl
@[simp] theorem Block.accept_val2 (r : Request) : (b.accept r).val2 = b.val2 := rfl
@[simp] theorem Block.accept_ts (r : Request) : (b.accept r).ts = b.ts := rfl

/-! `Block.capture` -/

@[simp] theorem Block.capture_fsm (x : Byte) : (b.capture x).fsm = b.fsm := rfl
@[simp] theorem Block.capture_op (x : Byte) : (b.capture x).op = b.op := rfl
@[simp] theorem Block.capture_arg (x : Byte) : (b.capture x).arg = b.arg := rfl
@[simp] theorem Block.capture_txFrame (x : Byte) : (b.capture x).txFrame = b.txFrame := rfl
@[simp] theorem Block.capture_rxBuf (x : Byte) : (b.capture x).rxBuf = b.rxBuf.setIfInBounds b.rxLen.toNat x := rfl
@[simp] theorem Block.capture_rxLen (x : Byte) : (b.capture x).rxLen = BitVec.ofNat 8 (min (b.rxLen.toNat + 1) 255) := rfl
@[simp] theorem Block.capture_timer (x : Byte) : (b.capture x).timer = b.timer := rfl
@[simp] theorem Block.capture_err (x : Byte) : (b.capture x).err = b.err := rfl
@[simp] theorem Block.capture_done (x : Byte) : (b.capture x).done = b.done := rfl
@[simp] theorem Block.capture_pulse (x : Byte) : (b.capture x).pulse = b.pulse := rfl
@[simp] theorem Block.capture_txReqQ (x : Byte) : (b.capture x).txReqQ = b.txReqQ := rfl
@[simp] theorem Block.capture_val0 (x : Byte) : (b.capture x).val0 = b.val0 := rfl
@[simp] theorem Block.capture_val1 (x : Byte) : (b.capture x).val1 = b.val1 := rfl
@[simp] theorem Block.capture_val2 (x : Byte) : (b.capture x).val2 = b.val2 := rfl
@[simp] theorem Block.capture_ts (x : Byte) : (b.capture x).ts = b.ts := rfl

/-! `Block.countCycle` -/

@[simp] theorem Block.countCycle_fsm : (b.countCycle).fsm = b.fsm := rfl
@[simp] theorem Block.countCycle_op : (b.countCycle).op = b.op := rfl
@[simp] theorem Block.countCycle_arg : (b.countCycle).arg = b.arg := rfl
@[simp] theorem Block.countCycle_txFrame : (b.countCycle).txFrame = b.txFrame := rfl
@[simp] theorem Block.countCycle_rxBuf : (b.countCycle).rxBuf = b.rxBuf := rfl
@[simp] theorem Block.countCycle_rxLen : (b.countCycle).rxLen = b.rxLen := rfl
@[simp] theorem Block.countCycle_timer : (b.countCycle).timer = b.timer + 1 := rfl
@[simp] theorem Block.countCycle_err : (b.countCycle).err = b.err := rfl
@[simp] theorem Block.countCycle_done : (b.countCycle).done = b.done := rfl
@[simp] theorem Block.countCycle_pulse : (b.countCycle).pulse = b.pulse := rfl
@[simp] theorem Block.countCycle_txReqQ : (b.countCycle).txReqQ = b.txReqQ := rfl
@[simp] theorem Block.countCycle_val0 : (b.countCycle).val0 = b.val0 := rfl
@[simp] theorem Block.countCycle_val1 : (b.countCycle).val1 = b.val1 := rfl
@[simp] theorem Block.countCycle_val2 : (b.countCycle).val2 = b.val2 := rfl
@[simp] theorem Block.countCycle_ts : (b.countCycle).ts = b.ts := rfl

/-! `Block.startRead` -/

@[simp] theorem Block.startRead_fsm : (b.startRead).fsm = .rx := rfl
@[simp] theorem Block.startRead_op : (b.startRead).op = b.op := rfl
@[simp] theorem Block.startRead_arg : (b.startRead).arg = b.arg := rfl
@[simp] theorem Block.startRead_txFrame : (b.startRead).txFrame = b.txFrame := rfl
@[simp] theorem Block.startRead_rxBuf : (b.startRead).rxBuf = b.rxBuf := rfl
@[simp] theorem Block.startRead_rxLen : (b.startRead).rxLen = b.rxLen := rfl
@[simp] theorem Block.startRead_timer : (b.startRead).timer = 0 := rfl
@[simp] theorem Block.startRead_err : (b.startRead).err = b.err := rfl
@[simp] theorem Block.startRead_done : (b.startRead).done = b.done := rfl
@[simp] theorem Block.startRead_pulse : (b.startRead).pulse = b.pulse := rfl
@[simp] theorem Block.startRead_txReqQ : (b.startRead).txReqQ = b.txReqQ := rfl
@[simp] theorem Block.startRead_val0 : (b.startRead).val0 = b.val0 := rfl
@[simp] theorem Block.startRead_val1 : (b.startRead).val1 = b.val1 := rfl
@[simp] theorem Block.startRead_val2 : (b.startRead).val2 = b.val2 := rfl
@[simp] theorem Block.startRead_ts : (b.startRead).ts = b.ts := rfl

/-! `Block.startWrite` -/

@[simp] theorem Block.startWrite_fsm (y : Body) : (b.startWrite y).fsm = .txw := rfl
@[simp] theorem Block.startWrite_op (y : Body) : (b.startWrite y).op = b.op := rfl
@[simp] theorem Block.startWrite_arg (y : Body) : (b.startWrite y).arg = b.arg := rfl
@[simp] theorem Block.startWrite_txFrame (y : Body) : (b.startWrite y).txFrame = encodeFrame y := rfl
@[simp] theorem Block.startWrite_rxBuf (y : Body) : (b.startWrite y).rxBuf = b.rxBuf := rfl
@[simp] theorem Block.startWrite_rxLen (y : Body) : (b.startWrite y).rxLen = b.rxLen := rfl
@[simp] theorem Block.startWrite_timer (y : Body) : (b.startWrite y).timer = b.timer := rfl
@[simp] theorem Block.startWrite_err (y : Body) : (b.startWrite y).err = b.err := rfl
@[simp] theorem Block.startWrite_done (y : Body) : (b.startWrite y).done = b.done := rfl
@[simp] theorem Block.startWrite_pulse (y : Body) : (b.startWrite y).pulse = b.pulse := rfl
@[simp] theorem Block.startWrite_txReqQ (y : Body) : (b.startWrite y).txReqQ = b.txReqQ := rfl
@[simp] theorem Block.startWrite_val0 (y : Body) : (b.startWrite y).val0 = b.val0 := rfl
@[simp] theorem Block.startWrite_val1 (y : Body) : (b.startWrite y).val1 = b.val1 := rfl
@[simp] theorem Block.startWrite_val2 (y : Body) : (b.startWrite y).val2 = b.val2 := rfl
@[simp] theorem Block.startWrite_ts (y : Body) : (b.startWrite y).ts = b.ts := rfl

/-! `State.advance` and the whole cycles made of it -/

@[simp] theorem State.advance_cfg : (s.advance b).cfg = s.cfg := rfl
@[simp] theorem State.advance_blk : (s.advance b).blk = b := rfl
@[simp] theorem State.advance_env : (s.advance b).env = s.nextEnv := rfl
@[simp] theorem State.resetCycle_cfg : s.resetCycle.cfg = s.cfg := rfl
@[simp] theorem State.resetCycle_blk : s.resetCycle.blk = Block.reset := rfl
@[simp] theorem State.resetCycle_env : s.resetCycle.env = s.nextEnv := rfl
@[simp] theorem State.idleCycle_cfg : s.idleCycle.cfg = s.cfg := rfl
@[simp] theorem State.idleCycle_blk : s.idleCycle.blk = s.ticked := rfl
@[simp] theorem State.idleCycle_env : s.idleCycle.env = s.nextEnv := rfl
@[simp] theorem State.rejectReserved_cfg (r : Request) : (s.rejectReserved r).cfg = s.cfg := rfl
@[simp] theorem State.rejectReserved_env (r : Request) : (s.rejectReserved r).env = s.nextEnv := rfl
@[simp] theorem State.withRequest_cfg (r : Request) : (s.withRequest r).cfg = s.cfg := rfl
@[simp] theorem State.withRequest_fsm (r : Request) : (s.withRequest r).blk.fsm = .idle := rfl
@[simp] theorem State.withRequest_err (r : Request) : (s.withRequest r).blk.err = s.blk.err := rfl
@[simp] theorem State.withRequest_req (r : Request) : (s.withRequest r).pins.req = some r := rfl
@[simp] theorem State.withRequest_rst (r : Request) : (s.withRequest r).pins.rst = false := rfl

/-! The pins that the environment's state does not touch -/

@[simp] theorem State.pins_rst : s.pins.rst = s.drive.rst := rfl
@[simp] theorem State.pins_req : s.pins.req = s.drive.req := rfl
@[simp] theorem State.pins_csrAddr : s.pins.csrAddr = s.drive.csrAddr := rfl
@[simp] theorem State.pins_timeIn : s.pins.timeIn = s.drive.timeIn := rfl
@[simp] theorem State.pins_rxErr : s.pins.rxErr = s.drive.rxErr := rfl

/-! What a cycle does to the environment -/

@[simp] theorem State.nextEnv_writes :
    s.nextEnv.writes = if s.writeBegins then s.env.writes ++ [s.blk.txFrame] else s.env.writes := rfl
@[simp] theorem State.nextEnv_chanIn :
    s.nextEnv.chanIn = if s.byteTaken then s.inbound.tail else s.inbound := rfl
@[simp] theorem State.nextEnv_owed :
    s.nextEnv.owed = s.answerable - (if s.pins.tx.isSome then 1 else 0) := rfl
@[simp] theorem State.nextEnv_drives : s.nextEnv.drives = s.env.drives.tail := rfl
@[simp] theorem State.nextEnv_cycle : s.nextEnv.cycle = s.env.cycle + 1 := rfl

end Sys2Proof.Machine
end

