-- ==== Sys2Proof/Laws/Ops.lean ====
section
/-! SUPPORT. One lemma per shared operation that says once what it does. -/

namespace Sys2Proof.Machine

/-! Complete, 60_exceptions.md R252 -/

@[simp] theorem Block.complete_success (b : Block) (w : Writes) :
    b.complete ⟨.ok, some w⟩ = (b.endOperation .ok).performWrites w := rfl

@[simp] theorem Block.complete_none (b : Block) (c : Code) : b.complete ⟨c, none⟩ = b.endOperation c := by
  cases c <;> rfl

@[simp] theorem Block.completeError_eq (b : Block) (c : Code) : b.completeError c = b.endOperation c :=
  b.complete_none c

/-- A verdict that is not a success writes no result register. -/
theorem Block.complete_of_ne_ok (b : Block) (v : Verdict) (h : v.code ≠ .ok) :
    b.complete v = b.endOperation v.code := by
  obtain ⟨c, w⟩ := v
  cases c <;> first | exact absurd rfl h | rfl

/-- Everything `Complete` can do: end the operation, and on a success perform the writes. -/
theorem Block.complete_cases (b : Block) (v : Verdict) :
    (∃ w, v = ⟨.ok, some w⟩ ∧ b.complete v = (b.endOperation .ok).performWrites w) ∨
      b.complete v = b.endOperation v.code := by
  obtain ⟨c, w⟩ := v
  cases w with
  | none => exact .inr (b.complete_none c)
  | some w =>
    by_cases h : c = .ok
    · subst h; exact .inl ⟨w, rfl, rfl⟩
    · exact .inr (b.complete_of_ne_ok _ h)

@[simp] theorem Block.complete_fsm (b : Block) (v : Verdict) : (b.complete v).fsm = .idle := by
  rcases b.complete_cases v with ⟨w, -, h⟩ | h <;> simp [h]

@[simp] theorem Block.complete_done (b : Block) (v : Verdict) : (b.complete v).done = true := by
  rcases b.complete_cases v with ⟨w, -, h⟩ | h <;> simp [h]

@[simp] theorem Block.complete_pulse (b : Block) (v : Verdict) : (b.complete v).pulse = true := by
  rcases b.complete_cases v with ⟨w, -, h⟩ | h <;> simp [h]

@[simp] theorem Block.complete_err (b : Block) (v : Verdict) : (b.complete v).err = v.code.bits := by
  rcases b.complete_cases v with ⟨w, rfl, h⟩ | h <;> simp [h]

@[simp] theorem Block.complete_op (b : Block) (v : Verdict) : (b.complete v).op = b.op := by
  rcases b.complete_cases v with ⟨w, -, h⟩ | h <;> simp [h]

@[simp] theorem Block.complete_arg (b : Block) (v : Verdict) : (b.complete v).arg = b.arg := by
  rcases b.complete_cases v with ⟨w, -, h⟩ | h <;> simp [h]

@[simp] theorem Block.complete_txFrame (b : Block) (v : Verdict) : (b.complete v).txFrame = b.txFrame := by
  rcases b.complete_cases v with ⟨w, -, h⟩ | h <;> simp [h]

@[simp] theorem Block.complete_rxBuf (b : Block) (v : Verdict) : (b.complete v).rxBuf = b.rxBuf := by
  rcases b.complete_cases v with ⟨w, -, h⟩ | h <;> simp [h]

@[simp] theorem Block.complete_rxLen (b : Block) (v : Verdict) : (b.complete v).rxLen = b.rxLen := by
  rcases b.complete_cases v with ⟨w, -, h⟩ | h <;> simp [h]

@[simp] theorem Block.complete_timer (b : Block) (v : Verdict) : (b.complete v).timer = b.timer := by
  rcases b.complete_cases v with ⟨w, -, h⟩ | h <;> simp [h]

@[simp] theorem Block.complete_txReqQ (b : Block) (v : Verdict) : (b.complete v).txReqQ = b.txReqQ := by
  rcases b.complete_cases v with ⟨w, -, h⟩ | h <;> simp [h]

/-- The code numbers are 0 to 8, 30_encoding.md R93. -/
theorem Code.bits_le (c : Code) : c.bits.toNat ≤ 8 := by cases c <;> decide

/-- Different codes have different numbers, 30_encoding.md R93. -/
theorem Code.bits_injective {c d : Code} (h : c.bits = d.bits) : c = d := by
  revert h; cases c <;> cases d <;> decide

/-! The checksum, 40_checksum.md R120 -/

@[simp] theorem checksum_nil : checksum [] = 0 := rfl

@[simp] theorem checksum_cons (x : Byte) (s : List Byte) : checksum (x :: s) = x + checksum s := by
  apply BitVec.eq_of_toNat_eq
  simp [checksum, Nat.add_mod]

/-! Encode and Validate, 41_frame_codec.md -/

/-- The frame of a body, byte by byte, R130. -/
theorem encodeFrame_commandBody (cls rw vv : Byte) :
    encodeFrame (commandBody cls rw vv) =
      #v[0xAA, 0xB4, cls, rw, vv, 0, 0, 0, 0, 0, 0, 0, 0, 0, 0, 0xFF, 0xFF, cls + (rw + (vv + 254)), 0xAB] := by
  have h : checksum (slice (commandBody cls rw vv).toList 2 16) = cls + (rw + (vv + 254)) := by
    simp [slice, commandBody]
  have hf : ∀ c : Byte, commandBody cls rw vv ++ #v[c, delimiter] =
      #v[0xAA, 0xB4, cls, rw, vv, 0, 0, 0, 0, 0, 0, 0, 0, 0, 0, 0xFF, 0xFF, c, 0xAB] := fun _ => rfl
  exact (congrArg (fun c => commandBody cls rw vv ++ #v[c, delimiter]) h).trans (hf _)

/-- The verdicts of `Validate`: length first, then checksum, R133 to R135. -/
theorem validate_length {buf : Capture} {len : BitVec 8} (h : len ≠ 10) : validate buf len = .lengthError := if_pos h

theorem validate_ten (buf : Capture) :
    validate buf 10 = if checksum (slice buf.toList 2 7) ≠ buf[8] then .checksumError else .ok := by
  simp [validate]

/-- The codes `Validate` can give. -/
theorem validate_cases (buf : Capture) (len : BitVec 8) :
    validate buf len = .lengthError ∨ (len = 10 ∧ (validate buf len = .checksumError ∨ validate buf len = .ok)) := by
  unfold validate; split
  · exact .inl rfl
  · next h => simp at h; split <;> simp [h]

end Sys2Proof.Machine
end

