-- ==== Sys2Proof/Laws/Transaction.lean ====
section
/-! SUPPORT. What one cycle of an operation can do, said once (`operate_next_cases`), and what a step can do
(`step_next_cases`). Invariants and frames are derived from these, without unfolding the machine again. -/

namespace Sys2Proof.Machine

/-! One cycle of an operation -/

theorem operate_of_reset {o : Operation} {s : State} (h : s.pins.rst = true) :
    operate o s = .next s.resetCycle := by
  simp only [operate, h, if_true]

theorem operate_of_idle {o : Operation} {s : State} (h : s.pins.rst = false) (hf : s.blk.fsm = .idle) :
    operate o s = .next (s.advance ((s.ticked.accept ⟨o.code, o.arg⟩).admitRequest o)) := by
  simp only [operate, h, hf, Bool.false_eq_true, if_false]

theorem operate_of_txw {o : Operation} {s : State} (h : s.pins.rst = false) (hf : s.blk.fsm = .txw) :
    operate o s = .next (s.advance (s.ticked.txStep s.pins.tx)) := by
  simp only [operate, h, hf, Bool.false_eq_true, if_false]

theorem operate_of_rx {o : Operation} {s : State} (h : s.pins.rst = false) (hf : s.blk.fsm = .rx)
    (hw : s.blk.timer.toNat < s.cfg.timeoutCycles) :
    operate o s = .next (s.advance (s.ticked.rxOpen o s.pins)) := by
  have hw' : inWindow s.cfg s.ticked = true := decide_eq_true hw
  simp only [operate, h, hf, Bool.false_eq_true, if_false, Block.rxStep, hw', if_true]

theorem operate_of_timeout {o : Operation} {s : State} (h : s.pins.rst = false) (hf : s.blk.fsm = .rx)
    (hw : s.blk.timer.toNat = s.cfg.timeoutCycles) :
    operate o s = .next (s.advance (s.ticked.endOperation .timeoutError)) := by
  have hw' : inWindow s.cfg s.ticked = false := by simp [inWindow, hw]
  have ht : s.ticked.timer.toNat = s.cfg.timeoutCycles := hw
  simp only [operate, h, hf, Bool.false_eq_true, if_false, Block.rxStep, hw', ht, if_true, Block.completeError_eq]

/-- Everything one cycle of an operation can do when it answers a next state. -/
theorem operate_next_cases {o : Operation} {s t : State} (h : operate o s = .next t) :
    (s.pins.rst = true ∧ t = s.resetCycle) ∨
    (s.pins.rst = false ∧ s.blk.fsm = .idle ∧ t = s.advance ((s.ticked.accept ⟨o.code, o.arg⟩).admitRequest o)) ∨
    (s.pins.rst = false ∧ s.blk.fsm = .txw ∧ t = s.advance (s.ticked.txStep s.pins.tx)) ∨
    (s.pins.rst = false ∧ s.blk.fsm = .rx ∧ s.blk.timer.toNat < s.cfg.timeoutCycles ∧
      t = s.advance (s.ticked.rxOpen o s.pins)) ∨
    (s.pins.rst = false ∧ s.blk.fsm = .rx ∧ s.blk.timer.toNat = s.cfg.timeoutCycles ∧
      t = s.advance (s.ticked.endOperation .timeoutError)) := by
  cases hr : s.pins.rst with
  | true => rw [operate_of_reset hr] at h; cases h; simp
  | false =>
    cases hf : s.blk.fsm with
    | idle => rw [operate_of_idle hr hf] at h; cases h; simp
    | txw => rw [operate_of_txw hr hf] at h; cases h; simp
    | unused => simp only [operate, hr, hf, Bool.false_eq_true, if_false] at h; cases h
    | rx =>
      rcases Nat.lt_trichotomy s.blk.timer.toNat s.cfg.timeoutCycles with hw | hw | hw
      · rw [operate_of_rx hr hf hw] at h; cases h; simp [hw]
      · rw [operate_of_timeout hr hf hw] at h; cases h; simp [hw]
      · have hw1 : inWindow s.cfg s.ticked = false := decide_eq_false (Nat.not_lt.mpr (Nat.le_of_lt hw))
        have hw2 : s.ticked.timer.toNat ≠ s.cfg.timeoutCycles := by simp; omega
        simp only [operate, hr, hf, Bool.false_eq_true, if_false, Block.rxStep, hw1, hw2] at h
        cases h

/-! The parts of a cycle -/

/-- Admission: a read starts, a write starts, or the operation ends with the admission's code, 42_transaction.md R155. -/
theorem Block.admitRequest_cases (b : Block) (o : Operation) :
    (o.admission = .ok ∧ o.body = none ∧ b.admitRequest o = b.startRead) ∨
    (o.admission = .ok ∧ ∃ y, o.body = some y ∧ b.admitRequest o = b.startWrite y) ∨
    (o.admission ≠ .ok ∧ b.admitRequest o = b.endOperation o.admission) := by
  unfold Block.admitRequest
  split
  · next h1 h2 => exact .inl ⟨h1, h2, rfl⟩
  · next y h1 h2 => exact .inr (.inl ⟨h1, y, h2, rfl⟩)
  · next h1 h2 =>
    refine .inr (.inr ⟨fun ho => ?_, Block.completeError_eq ..⟩)
    cases hb : o.body with
    | none => exact h1 ho hb
    | some y => exact h2 y ho hb

/-- The write's answer, 42_transaction.md R157. -/
theorem Block.txStep_cases (b : Block) (a : Option WriteAnswer) :
    (a = none ∧ b.txStep a = b) ∨
    (∃ w, a = some w ∧ w.ioerr = true ∧ b.txStep a = b.endOperation .ioError) ∨
    (∃ w, a = some w ∧ w.ioerr = false ∧ w.count ≠ 19 ∧ b.txStep a = b.endOperation .writeError) ∨
    (a = some ⟨false, 19⟩ ∧ b.txStep a = b.startRead) := by
  cases a with
  | none => exact .inl ⟨rfl, rfl⟩
  | some w =>
    obtain ⟨e, c⟩ := w
    cases e with
    | true => exact .inr (.inl ⟨_, rfl, rfl, by simp [Block.txStep]⟩)
    | false =>
      by_cases hc : c = 19
      · subst hc; exact .inr (.inr (.inr ⟨rfl, rfl⟩))
      · exact .inr (.inr (.inl ⟨_, rfl, rfl, hc, by simpa [Block.txStep] using fun h => absurd h hc⟩))

/-- `Finish`, 42_transaction.md R164. -/
theorem Block.finish_eq (b : Block) (o : Operation) (t : Time) :
    b.finish o t =
      if validate b.rxBuf b.rxLen = .ok then b.complete (o.interpret b.rxBuf t)
      else b.endOperation (validate b.rxBuf b.rxLen) := by
  unfold Block.finish
  split
  · next h => simp [h]
  · next h => rw [if_neg (fun e => h e), Block.completeError_eq]

/-- A cycle with the window open, 42_transaction.md R160 to R163. -/
theorem Block.rxOpen_cases (b : Block) (o : Operation) (p : Pins) :
    (p.rxErr = true ∧ b.rxOpen o p = b.endOperation .ioError) ∨
    (p.rxErr = false ∧ p.rx = none ∧ b.rxOpen o p = b.countCycle) ∨
    (p.rxErr = false ∧ (∃ x, p.rx = some x ∧ x ≠ delimiter ∧ b.rxOpen o p = (b.capture x).countCycle)) ∨
    (p.rxErr = false ∧ p.rx = some delimiter ∧ b.rxOpen o p = (b.capture delimiter).finish o p.timeIn) := by
  unfold Block.rxOpen
  cases he : p.rxErr with
  | true => simp
  | false =>
    cases hx : p.rx with
    | none => simp
    | some x => by_cases hd : x = delimiter <;> simp [Block.takeByte, hd]

/-! exec and step -/

/-- Every meaning is a cycle of its operation. -/
theorem exec_eq_operate (i : Instr) (s : State) : exec i s = operate (operationFor i) s := by
  cases i <;> rfl

@[simp] theorem operationFor_code (i : Instr) : (operationFor i).code = (encode i).op := by cases i <;> rfl

@[simp] theorem operationFor_arg (i : Instr) : (operationFor i).arg = (encode i).arg := by cases i <;> rfl

@[simp] theorem decode_encode_request (i : Instr) : decode (encode i) = .ok i := by cases i <;> rfl

/-- A request that decodes is the encoding of what it decodes to. -/
theorem encode_of_decode {r : Request} {i : Instr} (h : decode r = .ok i) : encode i = r := by
  obtain ⟨op, a⟩ := r
  unfold decode at h
  split at h <;> cases h <;> simp_all [encode]

/-- What a step fetches outside reset and fault: nothing, a reserved request, an operation to accept, or the one in progress. -/
theorem step_next_cases {s t : State} (h : step s = .next t) :
    (s.pins.rst = true ∧ t = s.resetCycle) ∨
    (s.pins.rst = false ∧ s.blk.fsm = .idle ∧ s.pins.req = none ∧ t = s.idleCycle) ∨
    (s.pins.rst = false ∧ s.blk.fsm = .idle ∧ ∃ r e, s.pins.req = some r ∧ decode r = .error e ∧ t = s.rejectReserved r) ∨
    (s.pins.rst = false ∧ s.blk.fsm = .idle ∧ ∃ i, s.pins.req = some (encode i) ∧ exec i s = .next t) ∨
    (s.pins.rst = false ∧ (s.blk.fsm = .txw ∨ s.blk.fsm = .rx) ∧
      ∃ i, encode i = ⟨s.blk.op, s.blk.arg⟩ ∧ exec i s = .next t) := by
  have busy : ∀ {f}, fetch s = fetchBusy s.blk → s.pins.rst = false → s.blk.fsm = f →
      ∃ i, encode i = ⟨s.blk.op, s.blk.arg⟩ ∧ exec i s = .next t := by
    intro f hb hr hf
    unfold step at h
    rw [hb, fetchBusy] at h
    cases hd : decode ⟨s.blk.op, s.blk.arg⟩ with
    | error e => simp [hd] at h
    | ok i => simp [hd] at h; exact ⟨i, encode_of_decode hd, h⟩
  cases hr : s.pins.rst with
  | true =>
    have hf : fetch s = .reset := by simp only [fetch, hr, if_true]
    simp only [step, hf] at h
    cases h; simp
  | false =>
    by_cases he : 8 < s.blk.err.toNat
    · have hf : fetch s = .stop .errReserved := by simp only [fetch, hr, Bool.false_eq_true, if_false, he, if_true]
      simp only [step, hf] at h
      cases h
    · cases hf : s.blk.fsm with
      | unused =>
        have hff : fetch s = .stop .fsmUnused := by simp only [fetch, hr, Bool.false_eq_true, if_false, he, hf]
        simp only [step, hff] at h
        cases h
      | txw =>
        have hff : fetch s = fetchBusy s.blk := by simp only [fetch, hr, Bool.false_eq_true, if_false, he, hf]
        simpa using busy hff hr hf
      | rx =>
        have hff : fetch s = fetchBusy s.blk := by simp only [fetch, hr, Bool.false_eq_true, if_false, he, hf]
        simpa using busy hff hr hf
      | idle =>
        cases hq : s.pins.req with
        | none =>
          have hff : fetch s = .quiet := by simp only [fetch, hr, Bool.false_eq_true, if_false, he, hf, hq]
          simp only [step, hff] at h
          cases h; simp
        | some r =>
          have hff : fetch s = fetchRequest r := by simp only [fetch, hr, Bool.false_eq_true, if_false, he, hf, hq]
          cases hd : decode r with
          | error e =>
            simp only [step, hff, fetchRequest, hd] at h
            cases h
            simp [hd]
          | ok i =>
            simp only [step, hff, fetchRequest, hd] at h
            have he := encode_of_decode hd
            exact .inr (.inr (.inr (.inl ⟨rfl, rfl, i, by rw [he], h⟩)))

end Sys2Proof.Machine
end

