-- ==== Sys2Proof/Laws/PerInstr.lean ====
section
/-! SUPPORT. Family Encoding: the request of an operation names an operation of the table, carries the operation's argument, and
has the bits the opcode table fixes (30_encoding.md R90, R91). -/

namespace Sys2Proof.Laws.Encoding

/-- What holds of the encoding of every operation. -/
def Statement (i : Instr) : Prop :=
  (encode i).wf = true ∧ (encode i).arg = i.arg ∧ (encode i).toWord.extractLsb' 0 4 = (encode i).op

theorem op_bits (r : Request) : r.toWord.extractLsb' 0 4 = r.op := by
  apply BitVec.eq_of_getLsbD_eq
  intro i hi
  rw [BitVec.getLsbD_extractLsb', Nat.zero_add]
  have h : r.toWord.getLsbD i = if i < 4 then r.op.getLsbD i else r.arg.getLsbD (i - 4) := BitVec.getLsbD_append
  simp [h, hi]

theorem getFirmware (a : Word) : Statement (.getFirmware a) := ⟨rfl, rfl, op_bits _⟩
theorem getWorkMode (a : Word) : Statement (.getWorkMode a) := ⟨rfl, rfl, op_bits _⟩
theorem setWorkMode (a : Word) : Statement (.setWorkMode a) := ⟨rfl, rfl, op_bits _⟩
theorem getReportingMode (a : Word) : Statement (.getReportingMode a) := ⟨rfl, rfl, op_bits _⟩
theorem setReportingMode (a : Word) : Statement (.setReportingMode a) := ⟨rfl, rfl, op_bits _⟩
theorem getWorkPeriod (a : Word) : Statement (.getWorkPeriod a) := ⟨rfl, rfl, op_bits _⟩
theorem setWorkPeriod (a : Word) : Statement (.setWorkPeriod a) := ⟨rfl, rfl, op_bits _⟩
theorem queryData (a : Word) : Statement (.queryData a) := ⟨rfl, rfl, op_bits _⟩
theorem waitForData (a : Word) : Statement (.waitForData a) := ⟨rfl, rfl, op_bits _⟩

end Sys2Proof.Laws.Encoding
end

