-- ==== Sys2Proof/Laws/Run.lean ====
section
/-! SUPPORT. What a step fetches, what it does to the configuration and the environment, how a run unfolds, and when a byte is
taken or a write begins: the lemmas that statements about one step and about runs are proved from. -/

namespace Sys2Proof.Machine

open Sys2Proof.Safety

/-! Fetch -/

theorem fetch_reset {s : State} (h : s.pins.rst = true) : fetch s = .reset := by
  simp only [fetch, h, if_true]

theorem fetch_idle {s : State} {r : Request} (h : s.pins.rst = false) (he : s.blk.err.toNat ≤ 8)
    (hf : s.blk.fsm = .idle) (hq : s.pins.req = some r) : fetch s = fetchRequest r := by
  simp only [fetch, h, Bool.false_eq_true, if_false, Nat.not_lt.mpr he, hf, hq]

theorem fetch_quiet {s : State} (h : s.pins.rst = false) (he : s.blk.err.toNat ≤ 8) (hf : s.blk.fsm = .idle)
    (hq : s.pins.req = none) : fetch s = .quiet := by
  simp only [fetch, h, Bool.false_eq_true, if_false, Nat.not_lt.mpr he, hf, hq]

theorem fetch_busy {s : State} (h : s.pins.rst = false) (he : s.blk.err.toNat ≤ 8)
    (hf : s.blk.fsm = .txw ∨ s.blk.fsm = .rx) : fetch s = fetchBusy s.blk := by
  rcases hf with hf | hf <;> simp only [fetch, h, Bool.false_eq_true, if_false, Nat.not_lt.mpr he, hf]

theorem step_reset {s : State} (h : s.pins.rst = true) : step s = .next s.resetCycle := by
  rw [step, fetch_reset h]

/-- The codes 0 to 8 decode. -/
theorem decode_ok_of_le {r : Request} (h : r.op.toNat ≤ 8) : ∃ i, decode r = .ok i := by
  obtain ⟨op, a⟩ := r
  have small : ∀ op : BitVec 4, op.toNat ≤ 8 →
      op = 0 ∨ op = 1 ∨ op = 2 ∨ op = 3 ∨ op = 4 ∨ op = 5 ∨ op = 6 ∨ op = 7 ∨ op = 8 := by decide
  rcases small op h with rfl | rfl | rfl | rfl | rfl | rfl | rfl | rfl | rfl <;> exact ⟨_, rfl⟩

/-- The codes 9 to 15 do not. -/
theorem decode_error_of_ge {r : Request} (h : 9 ≤ r.op.toNat) : decode r = .error (.reservedCode r.op) := by
  obtain ⟨op, a⟩ := r
  have large : ∀ op : BitVec 4, 9 ≤ op.toNat →
      op = 9 ∨ op = 10 ∨ op = 11 ∨ op = 12 ∨ op = 13 ∨ op = 14 ∨ op = 15 := by decide
  rcases large op h with rfl | rfl | rfl | rfl | rfl | rfl | rfl <;> rfl

theorem encode_op_le (i : Instr) : (encode i).op.toNat ≤ 8 := by cases i <;> simp [encode]

/-! Configuration and environment -/

/-- Every step leaves the configuration alone and ends its cycle in the same environment, whatever it runs. -/
theorem step_env {s t : State} (h : step s = .next t) : t.env = s.nextEnv ∧ t.cfg = s.cfg := by
  have run : ∀ i, exec i s = .next t → t.env = s.nextEnv ∧ t.cfg = s.cfg := by
    intro i he
    rw [exec_eq_operate] at he
    rcases operate_next_cases he with ⟨_, rfl⟩ | ⟨_, _, rfl⟩ | ⟨_, _, rfl⟩ | ⟨_, _, _, rfl⟩ | ⟨_, _, _, rfl⟩ <;>
      exact ⟨rfl, rfl⟩
  rcases step_next_cases h with ⟨-, rfl⟩ | ⟨-, -, -, rfl⟩ | ⟨-, -, r, e, -, -, rfl⟩ | ⟨-, -, i, -, he⟩ | ⟨-, -, i, -, he⟩
  · exact ⟨rfl, rfl⟩
  · exact ⟨rfl, rfl⟩
  · exact ⟨rfl, rfl⟩
  · exact run i he
  · exact run i he

theorem ticked_of_ne_txw {s : State} (h : s.blk.fsm ≠ .txw) :
    s.ticked = { s.blk with txReqQ := false, pulse := false } := by
  simp [State.ticked, txReq, h]

theorem ticked_txw {s : State} (h : s.blk.fsm = .txw) (hr : s.pins.rst = false) :
    s.ticked = { s.blk with txReqQ := true, pulse := false } := by
  have hr' : s.drive.rst = false := hr
  simp [State.ticked, txReq, h, hr']

theorem writeBegins_of_ne_txw {s : State} (h : s.blk.fsm ≠ .txw) : s.writeBegins = false := by
  simp [State.writeBegins, txReq, h]

theorem byteTaken_idle_hold {s : State} (h : s.blk.fsm = .idle) (hp : s.cfg.rxIdlePolicy = .hold) :
    s.byteTaken = false := by
  simp [State.byteTaken, rxReady, h, hp]

/-- An offered byte is the head of the channel's queue. -/
theorem inbound_of_rx {s : State} {x : Byte} (h : s.pins.rx = some x) : s.inbound = x :: s.inbound.tail := by
  simp only [State.pins] at h
  split at h
  · cases hi : s.inbound with
    | nil => simp [hi] at h
    | cons y ys => simp [hi] at h; simp [h]
  · cases h

/-! Success -/

theorem Block.finish_ok {b : Block} {o : Operation} {t : Time} (h : (b.finish o t).err = 0) : b.rxLen = 10 := by
  rw [Block.finish_eq] at h
  rcases validate_cases b.rxBuf b.rxLen with hv | ⟨hl, -⟩
  · simp [hv, Code.bits] at h
  · exact hl

/-- What makes a success: it was there before and nothing was accepted, or the delimiter has come as the tenth byte of a
read. -/
theorem step_success_cases {s t : State} (h : step s = .next t) (hd : t.blk.done = true) (he : t.blk.err = 0) :
    (s.blk.done = true ∧ s.blk.err = 0) ∨ (s.blk.fsm = .rx ∧ s.blk.rxLen = 9) := by
  have code {b : Block} {c : Code} (h0 : (b.endOperation c).err = 0) (hc : c ≠ .ok) : False :=
    hc (Code.bits_injective h0)
  rcases step_next_cases h with ⟨-, rfl⟩ | ⟨-, -, -, rfl⟩ | ⟨-, -, r, e, -, -, rfl⟩ | ⟨hr, hf, i, -, hx⟩ | ⟨hr, hf, i, -, hx⟩
  · simp [Block.reset] at hd
  · exact .inl ⟨hd, he⟩
  · simp [State.rejectReserved, Code.bits] at he
  · rw [exec_eq_operate, operate_of_idle hr hf] at hx
    cases hx
    rcases Block.admitRequest_cases (s.ticked.accept ⟨(operationFor i).code, (operationFor i).arg⟩) (operationFor i)
      with ⟨-, -, h3⟩ | ⟨-, y, -, h3⟩ | ⟨h1, h3⟩
    · rw [State.advance_blk, h3] at hd; cases hd
    · rw [State.advance_blk, h3] at hd; cases hd
    · rw [State.advance_blk, h3] at he; exact (code he h1).elim
  · rw [exec_eq_operate] at hx
    rcases operate_next_cases hx with ⟨hr2, -⟩ | ⟨-, h3, -⟩ | ⟨-, h3, rfl⟩ | ⟨-, h3, -, rfl⟩ | ⟨-, -, -, rfl⟩
    · rw [hr] at hr2; cases hr2
    · rcases hf with hf | hf <;> (rw [h3] at hf; cases hf)
    · rcases Block.txStep_cases s.ticked s.pins.tx with ⟨-, h2⟩ | ⟨w, -, -, h2⟩ | ⟨w, -, -, -, h2⟩ | ⟨-, h2⟩ <;>
        rw [State.advance_blk, h2] at hd he
      · exact .inl ⟨hd, he⟩
      · exact (code he (by decide)).elim
      · exact (code he (by decide)).elim
      · exact .inl ⟨hd, he⟩
    · rcases Block.rxOpen_cases s.ticked (operationFor i) s.pins with ⟨-, h2⟩ | ⟨-, -, h2⟩ | ⟨-, y, -, -, h2⟩ | ⟨-, -, h2⟩ <;>
        rw [State.advance_blk, h2] at hd he
      · exact (code he (by decide)).elim
      · exact .inl ⟨hd, he⟩
      · exact .inl ⟨hd, he⟩
      · have hl := congrArg BitVec.toNat (Block.finish_ok he)
        simp at hl
        exact .inr ⟨h3, BitVec.eq_of_toNat_eq (by simp; omega)⟩
    · exact (code he (by decide)).elim

/-! Runs -/

theorem runFor_zero (s : State) : runFor 0 s = .next s := rfl

/-- A run of one step more. -/
theorem runFor_next {n : Nat} {s t : State} (h : step s = .next t) : runFor (n + 1) s = runFor n t := by
  simp only [runFor, Host.Core.run, core, h]

/-- The schedule's head is this cycle's drive, and the rest of it decides the cycles after. -/
theorem nextDrives_head {s : State} {n : Nat} {p : Drive → Prop} (h : NextDrives s (n + 1) p) :
    p s.drive ∧ ∀ b, NextDrives (s.advance b) n p := by
  obtain ⟨h1, h2⟩ := h
  cases hd : s.env.drives with
  | nil => simp [hd] at h1
  | cons d ds =>
    simp [hd] at h1 h2
    exact ⟨by simpa [State.drive, hd] using h2.1, fun b => ⟨by simpa [hd] using h1, by simpa [hd] using h2.2⟩⟩

end Sys2Proof.Machine
end

