-- ==== Sys2Proof/Tests/Slice0.lean ====
section
/-! SUPPORT. Tests: ill-formed terms that the checks refuse, words written out from the spec's encodings, the vectors of
95_test_vectors.md over single steps, and a witness for every statement that has hypotheses. -/

namespace Sys2Proof.Tests

open Sys2Proof.Machine Sys2Proof.Safety

/-! Small states -/

/-- A cycle in which nobody does anything but the channel offers what it holds. -/
def calm : Drive := ⟨false, none, 0, 7, none, [], true, false⟩

def hold100 : Config := ⟨20, 100, .hold⟩
def drop100 : Config := ⟨20, 100, .drop⟩

/-- A block with the registers `b`, one cycle of schedule, and these bytes in the channel. -/
def state (b : Block) (d : Drive) (chan : List Byte := []) (c : Config := hold100) : State :=
  ⟨c, b, { Env.start with drives := [d], chanIn := chan }⟩

/-- An idle block to which this request is made. -/
def asked (i : Instr) : State := state Block.reset { calm with req := some (encode i) }

/-- A block in the first cycle of the write of this operation. -/
def writing (i : Instr) (answer : Option WriteAnswer) : State :=
  state { Block.reset with fsm := .txw, op := (encode i).op, arg := i.arg, txFrame := encodeFrame (readBody classFirmware) }
    { calm with answer := answer }

/-- A block that has captured `buf` and `len` and is offered the byte `x` in this cycle. -/
def reading (i : Instr) (buf : Capture) (len : BitVec 8) (x : Byte) : State :=
  state { Block.reset with
      fsm := .rx, op := (encode i).op, arg := i.arg, rxBuf := buf, rxLen := len, timer := 20, val0 := 5 }
    calm [x]

/-- The firmware response of S10, without its tail. -/
def firmwareReply : Capture := #v[0xAA, 0xC5, 0x07, 0x12, 0x03, 0x16, 0xA1, 0x60, 0x33, 0]
/-- The measurement of V-VAL-6, without its tail. -/
def dataReply : Capture := #v[0xAA, 0xC0, 0x0A, 0x00, 0x14, 0x00, 0xA1, 0x60, 0x1F, 0]
/-- The reply to `SET_REPORTING_MODE` that echoes `Active`, S8, without its tail. -/
def echoZero : Capture := #v[0xAA, 0xC5, 0x02, 0x01, 0x00, 0x00, 0xA1, 0x60, 0x04, 0]
/-- The reply of R195's example, without its tail. -/
def getOne : Capture := #v[0xAA, 0xC5, 0x02, 0x00, 0x01, 0x00, 0xA1, 0x60, 0x04, 0]

/-- The registers after a cycle. -/
def after (o : Host.Outcome State Fault Refusal) : Option Block :=
  match o with
  | .next t => some t.blk
  | _ => none

/-- What a completion leaves to the host. -/
def result (o : Host.Outcome State Fault Refusal) : Option (BitVec 4 × Half × Half × Half × Time) :=
  (after o).map fun b => (b.err, b.val0, b.val1, b.val2, b.ts)

/-- The sequencer state, code and frame a cycle leaves. -/
def sent (o : Host.Outcome State Fault Refusal) : Option (Fsm × BitVec 4 × List Byte) :=
  (after o).map fun b => (b.fsm, b.err, b.txFrame.toList)

/-! WellFormed: an ill-formed term for each check -/

theorem test_request_reserved_refused : Request.wf ⟨9, 0⟩ = false := by decide
theorem test_request_last_code_accepted : Request.wf ⟨8, 0⟩ = true := by decide
theorem test_textual_refuses_ignored_argument : (Instr.getFirmware 5).textual = false := by decide
theorem test_config_clock_zero : Config.wf ⟨0, 5, .hold⟩ = false := by decide
theorem test_config_window_zero : Config.wf ⟨1, 0, .hold⟩ = false := by decide
theorem test_config_window_too_long : Config.wf ⟨1, 4294967296, .hold⟩ = false := by decide
theorem test_make_clock_zero : (match Config.make 0 5 .hold with | .error e => some e | _ => none) = some .clockZero := by
  decide
theorem test_make_window_zero : (match Config.make 1 0 .hold with | .error e => some e | _ => none) = some .windowZero := by
  decide
theorem test_make_window_too_long :
    (match Config.make 1 4294967296 .hold with | .error e => some e | _ => none) = some .windowTooLong := by decide
theorem test_make_longest_window :
    (match Config.make 1 4294967295 .drop with | .ok c => c.wf | _ => false) = true := by decide

/-! Decode: one word per operation, `req_arg` in bits 35..4, `req_op` in bits 3..0 (30_encoding.md R90) -/

theorem test_decode_getFirmware : decodeTableWord 36 0b0000 = some (.getFirmware 0) := by decide
theorem test_decode_getWorkMode : decodeTableWord 36 0b0001 = some (.getWorkMode 0) := by decide
theorem test_decode_setWorkMode : decodeTableWord 36 0b1_0010 = some (.setWorkMode 1) := by decide
theorem test_decode_getReportingMode : decodeTableWord 36 0b0011 = some (.getReportingMode 0) := by decide
theorem test_decode_setReportingMode : decodeTableWord 36 0b1_0100 = some (.setReportingMode 1) := by decide
theorem test_decode_getWorkPeriod : decodeTableWord 36 0b0101 = some (.getWorkPeriod 0) := by decide
theorem test_decode_setWorkPeriod : decodeTableWord 36 0b11110_0110 = some (.setWorkPeriod 30) := by decide
theorem test_decode_queryData : decodeTableWord 36 0b0111 = some (.queryData 0) := by decide
theorem test_decode_waitForData : decodeTableWord 36 0b1000 = some (.waitForData 0) := by decide
theorem test_decode_short_row : decodeTableWord 8 0x2 = some (.setWorkMode 0) := by decide
theorem test_decode_argument_top_bit : decodeTableWord 36 0x800000006 = some (.setWorkPeriod 0x80000000) := by decide
theorem test_decode_reserved : [9, 10, 11, 12, 13, 14, 15].map (decodeTableWord 36) = List.replicate 7 none := by decide

/-- The fetched word is what the next step runs: V-ENC-3. -/
theorem test_fetch_word_runs :
    sent (step (State.reset.withFetchWord 8 0x2)) =
      some (.txw, 0, [0xAA, 0xB4, 6, 1, 0, 0, 0, 0, 0, 0, 0, 0, 0, 0, 0, 0xFF, 0xFF, 5, 0xAB]) := by rfl

/-! Accept: the frames of 95_test_vectors.md 2.2, one per operation -/

theorem test_send_getFirmware : sent (exec (.getFirmware 0) (asked (.getFirmware 0))) =
    some (.txw, 0, [0xAA, 0xB4, 7, 0, 0, 0, 0, 0, 0, 0, 0, 0, 0, 0, 0, 0xFF, 0xFF, 5, 0xAB]) := by decide
theorem test_send_getWorkMode : sent (exec (.getWorkMode 0x55) (asked (.getWorkMode 0x55))) =
    some (.txw, 0, [0xAA, 0xB4, 6, 0, 0, 0, 0, 0, 0, 0, 0, 0, 0, 0, 0, 0xFF, 0xFF, 4, 0xAB]) := by decide
theorem test_send_setWorkMode : sent (exec (.setWorkMode 1) (asked (.setWorkMode 1))) =
    some (.txw, 0, [0xAA, 0xB4, 6, 1, 1, 0, 0, 0, 0, 0, 0, 0, 0, 0, 0, 0xFF, 0xFF, 6, 0xAB]) := by decide
theorem test_send_getReportingMode : sent (exec (.getReportingMode 0) (asked (.getReportingMode 0))) =
    some (.txw, 0, [0xAA, 0xB4, 2, 0, 0, 0, 0, 0, 0, 0, 0, 0, 0, 0, 0, 0xFF, 0xFF, 0, 0xAB]) := by decide
theorem test_send_setReportingMode : sent (exec (.setReportingMode 1) (asked (.setReportingMode 1))) =
    some (.txw, 0, [0xAA, 0xB4, 2, 1, 1, 0, 0, 0, 0, 0, 0, 0, 0, 0, 0, 0xFF, 0xFF, 2, 0xAB]) := by decide
theorem test_send_getWorkPeriod : sent (exec (.getWorkPeriod 0) (asked (.getWorkPeriod 0))) =
    some (.txw, 0, [0xAA, 0xB4, 8, 0, 0, 0, 0, 0, 0, 0, 0, 0, 0, 0, 0, 0xFF, 0xFF, 6, 0xAB]) := by decide
theorem test_send_setWorkPeriod : sent (exec (.setWorkPeriod 30) (asked (.setWorkPeriod 30))) =
    some (.txw, 0, [0xAA, 0xB4, 8, 1, 0x1E, 0, 0, 0, 0, 0, 0, 0, 0, 0, 0, 0xFF, 0xFF, 0x25, 0xAB]) := by decide
theorem test_send_queryData : sent (exec (.queryData 0) (asked (.queryData 0))) =
    some (.txw, 0, [0xAA, 0xB4, 4, 0, 0, 0, 0, 0, 0, 0, 0, 0, 0, 0, 0, 0xFF, 0xFF, 2, 0xAB]) := by decide
/-- V-ENC-14: no frame. -/
theorem test_send_waitForData : sent (exec (.waitForData 0) (asked (.waitForData 0))) =
    some (.rx, 0, List.replicate 19 0) := by decide

/-! The end of a read: the examples of 43_operations.md and 95_test_vectors.md part 1 -/

theorem test_result_getFirmware :
    result (exec (.getFirmware 0) (reading (.getFirmware 0) firmwareReply 9 0xAB)) = some (0, 18, 3, 22, 0) := by decide
/-- 70_reset_and_hazards.md R286: the firmware's month is read as the work mode. -/
theorem test_result_getWorkMode :
    result (exec (.getWorkMode 0) (reading (.getWorkMode 0) firmwareReply 9 0xAB)) = some (0, 3, 0, 0, 0) := by decide
theorem test_result_setWorkMode :
    result (exec (.setWorkMode 0) (reading (.setWorkMode 0) echoZero 9 0xAB)) = some (0, 0, 0, 0, 0) := by decide
theorem test_result_getReportingMode :
    result (exec (.getReportingMode 0) (reading (.getReportingMode 0) getOne 9 0xAB)) = some (0, 1, 0, 0, 0) := by decide
/-- S8: `VAL0` keeps its old value. -/
theorem test_result_setReportingMode :
    result (exec (.setReportingMode 1) (reading (.setReportingMode 1) echoZero 9 0xAB)) = some (5, 5, 0, 0, 0) := by
  decide
theorem test_result_getWorkPeriod :
    result (exec (.getWorkPeriod 0) (reading (.getWorkPeriod 0)
      #v[0xAA, 0xC5, 0x08, 0x00, 0x1E, 0x00, 0xA1, 0x60, 0x27, 0] 9 0xAB)) = some (0, 30, 0, 0, 0) := by decide
theorem test_result_setWorkPeriod :
    result (exec (.setWorkPeriod 30) (reading (.setWorkPeriod 30)
      #v[0xAA, 0xC5, 0x08, 0x01, 0x1E, 0x00, 0xA1, 0x60, 0x28, 0] 9 0xAB)) = some (0, 30, 0, 0, 0) := by decide
theorem test_result_queryData :
    result (exec (.queryData 0) (reading (.queryData 0) dataReply 9 0xAB)) = some (0, 10, 20, 0, 7) := by decide
theorem test_result_waitForData :
    result (exec (.waitForData 0) (reading (.waitForData 0)
      #v[0xAA, 0xC0, 0xD4, 0x04, 0x3A, 0x0A, 0xA1, 0x60, 0x1D, 0] 9 0xAB)) = some (0, 1236, 2618, 0, 7) := by decide

/-! Admission corners, 43_operations.md R194, R196, R198 and R92 -/

theorem test_period_31_refused :
    (after (exec (.setWorkPeriod 31) (asked (.setWorkPeriod 31)))).map (fun b => (b.fsm, b.err, b.done, b.pulse)) =
      some (.idle, 6, true, true) := by decide
theorem test_period_corners :
    [0, 30, 31, -1, 0x100, 0x80000000].map admitPeriod =
      [.ok, .ok, .rangeError, .rangeError, .rangeError, .rangeError] := by decide
theorem test_mode_corners :
    [0, 1, 2, 0x101, -1].map admitMode = [.ok, .ok, .rangeError, .rangeError, .rangeError] := by decide
theorem test_reserved_request :
    (after (step (state Block.reset { calm with req := some ⟨0xA, 0⟩ }))).map (fun b => (b.fsm, b.err, b.op, b.done)) =
      some (.idle, 7, 0xA, true) := by decide

/-! The write and the read, 95_test_vectors.md 2.3 and 2.4 -/

/-- V-TX-1 to V-TX-4. -/
theorem test_write_answers :
    [⟨false, 18⟩, ⟨false, 20⟩, ⟨false, 0⟩, ⟨true, 19⟩, ⟨false, 19⟩].map
      (fun a => (after (step (writing (.getWorkMode 0) (some a)))).map fun b => (b.fsm, b.err)) =
      [some (.idle, 8), some (.idle, 8), some (.idle, 8), some (.idle, 1), some (.rx, 0)] := by decide
/-- V-VAL-5: a wrong checksum. -/
theorem test_checksum_error :
    result (step (reading (.queryData 0) #v[0xAA, 0xC0, 0x0A, 0x00, 0x14, 0x00, 0xA1, 0x60, 0x20, 0] 9 0xAB)) =
      some (4, 5, 0, 0, 0) := by decide
/-- V-VAL-2: a delimiter as ninth byte. -/
theorem test_length_error :
    (after (step (reading (.queryData 0) #v[0xAA, 0xC0, 0x0A, 0x00, 0x14, 0x00, 0xA1, 0xEC, 0, 0] 8 0xAB))).map
      (fun b => (b.err, b.rxLen, b.rxBuf[8])) = some (3, 9, 0xAB) := by decide
/-- The length saturates, 42_transaction.md R161. -/
theorem test_length_saturates :
    (after (step (reading (.queryData 0) dataReply 255 0x55))).map (fun b => (b.fsm, b.rxLen, b.rxBuf)) =
      some (.rx, 255, dataReply) := by decide
/-- V-VAL-7: header and reply type are not checked. -/
theorem test_header_not_checked :
    validate #v[0, 0, 0x0A, 0x00, 0x14, 0x00, 0xA1, 0x60, 0x1F, 0xAB] 10 = .ok := by decide

/-! Checksum, counts, register view, text and date -/

/-- V-CS-1 to V-CS-3, V-CS-6. -/
theorem test_checksum_vectors :
    [[], [0xFF, 0xFF, 0xFF], [0x80, 0x80], [0x0A, 0x00, 0x14, 0x00, 0xA1, 0xEC]].map checksum = [0, 0xFD, 0, 0xAB] := by
  decide
theorem test_decode_values : decodeValues 0x0A 0x00 0x14 0x00 = (10, 20) := by decide
theorem test_decode_values_top : decodeValues 0xFF 0xFF 0xFF 0xFF = (65535, 65535) := by decide
/-- P2: `STATUS = 0x00000502` after a success of operation 5. -/
theorem test_status_word : csrRead { Block.reset with op := 5, done := true } 0 = 0x00000502 := by decide
theorem test_csr_last_capture_byte : csrRead { Block.reset with rxBuf := Vector.replicate 10 0xAB } 0x19 = 0xAB := by
  decide
theorem test_csr_hole : csrRead { Block.reset with rxBuf := Vector.replicate 10 0xAB } 0x1A = 0 := by decide
theorem test_text_symbol : parseLine "SET_REPORTING_MODE Query".toList = some (.setReportingMode 1) := by decide
theorem test_text_negative : parseLine "SET_WORK_PERIOD -1".toList = some (.setWorkPeriod (-1)) := by decide
theorem test_text_hex : parseLine "SET_WORK_MODE 0x01".toList = some (.setWorkMode 1) := by decide
theorem test_text_argument_missing : parseLine "SET_WORK_MODE".toList = none := by decide
theorem test_text_argument_too_many : parseLine "QUERY_DATA 0".toList = none := by decide
/-- S10. -/
theorem test_date : firmwareDate .pad2 { Block.reset with val0 := 18, val1 := 3, val2 := 22 } = "2018-3-22".toList := by
  decide

/-! Witnesses: for each statement with hypotheses, a state and operands that meet all of them, clause by clause -/

/-- The last cycle of a read that ends with this capture. -/
abbrev ends (i : Instr) (buf : Capture) : State := reading i buf 9 0xAB

/-- A read at this timer value in a cycle with this drive. -/
def atTimer (n : BitVec 32) (d : Drive) (chan : List Byte) : State :=
  state { Block.reset with fsm := .rx, op := 7, timer := n, rxLen := 0 } d chan

theorem test_witness_TextLinesReadBack :
    (Instr.getFirmware 0).textual = true ∧ (Instr.setWorkPeriod (-1)).textual = true := by decide

theorem test_witness_StepRunsDecodedOperation_idle :
    (asked (.setWorkMode 1)).pins.rst = false ∧ (asked (.setWorkMode 1)).blk.err.toNat ≤ 8 ∧
      (asked (.setWorkMode 1)).blk.fsm = .idle ∧ (asked (.setWorkMode 1)).pins.req = some (encode (.setWorkMode 1)) := by
  decide
theorem test_witness_StepRunsDecodedOperation_txw :
    (writing (.getWorkMode 3) none).pins.rst = false ∧ (writing (.getWorkMode 3) none).blk.fsm = .txw ∧
      encode (.getWorkMode 3) = ⟨(writing (.getWorkMode 3) none).blk.op, (writing (.getWorkMode 3) none).blk.arg⟩ := by
  decide
theorem test_witness_StepRunsDecodedOperation_rx :
    (ends (.queryData 3) dataReply).pins.rst = false ∧ (ends (.queryData 3) dataReply).blk.fsm = .rx ∧
      encode (.queryData 3) = ⟨(ends (.queryData 3) dataReply).blk.op, (ends (.queryData 3) dataReply).blk.arg⟩ := by
  decide

theorem test_witness_StepStops_errReserved :
    step (state { Block.reset with err := 9 } calm) = .fault .errReserved := by rfl
theorem test_witness_StepStops_fsmUnused :
    step (state { Block.reset with fsm := .unused, err := 8 } calm) = .fault .fsmUnused := by rfl
theorem test_witness_StepStops_opReservedBusy :
    step (state { Block.reset with fsm := .txw, op := 9 } calm) = .fault .opReservedBusy := by rfl
theorem test_witness_StepStops_timerBeyondWindow :
    step (state { Block.reset with fsm := .rx, op := 8, timer := 101 } calm) = .fault .timerBeyondWindow := by rfl

theorem test_witness_AdmittedRequestStarts :
    InState (asked (.setWorkPeriod 30)) .idle ∧ specAdmit 6 30 = .ok ∧ specAdmit 6 0 = .ok ∧
      InState (asked (.waitForData 0)) .idle ∧ specAdmit 8 0 = .ok :=
  ⟨⟨rfl, rfl⟩, by decide, by decide, ⟨rfl, rfl⟩, by decide⟩
theorem test_witness_RefusedArgumentCompletesAtOnce :
    InState (asked (.setWorkPeriod 31)) .idle ∧ specAdmit 6 31 ≠ .ok ∧ specAdmit 6 (-1) ≠ .ok ∧ specAdmit 2 2 ≠ .ok ∧
      specAdmit 4 (-1) ≠ .ok ∧ (asked (.setWorkPeriod 31)).cfg.rxIdlePolicy = .hold :=
  ⟨⟨rfl, rfl⟩, by decide, by decide, by decide, by decide, rfl⟩
theorem test_witness_WorkPeriodRange :
    InState (asked (.setWorkPeriod 30)) .idle ∧ (∀ a ∈ [(0 : Word), 30], 0 ≤ a.toInt ∧ a.toInt ≤ 30) ∧
      ∀ a ∈ [(-1 : Word), 31], ¬(0 ≤ a.toInt ∧ a.toInt ≤ 30) :=
  ⟨⟨rfl, rfl⟩, by simp, by simp⟩
theorem test_witness_ReservedCodeCompletesMalformed :
    ∀ op ∈ [(9 : BitVec 4), 15], InState (state Block.reset { calm with req := some ⟨op, 5⟩ }) .idle ∧
      (state Block.reset { calm with req := some ⟨op, 5⟩ }).blk.err.toNat ≤ 8 ∧
      (state Block.reset { calm with req := some ⟨op, 5⟩ }).pins.req = some ⟨op, 5⟩ ∧ 9 ≤ op.toNat ∧
      (state Block.reset { calm with req := some ⟨op, 5⟩ }).cfg.rxIdlePolicy = .hold := by
  unfold InState; decide
theorem test_witness_IgnoredArgumentOnlyLatched :
    (asked (.getFirmware 5)).pins.rst = false ∧ (asked (.getFirmware 5)).blk.fsm = .idle ∧
      (ends (.queryData 0) dataReply).pins.rst = false ∧ (ends (.queryData 0) dataReply).blk.fsm ≠ .idle := by decide

theorem test_witness_FirmwareResult : ValidFrameEnds (ends (.getFirmware 0) firmwareReply) :=
  ⟨⟨⟨rfl, rfl⟩, by decide, rfl⟩, by decide, rfl, by decide⟩
theorem test_witness_GetByteResult : ValidFrameEnds (ends (.getReportingMode 0) getOne) :=
  ⟨⟨⟨rfl, rfl⟩, by decide, rfl⟩, by decide, rfl, by decide⟩
theorem test_witness_SetEchoResult : ValidFrameEnds (ends (.setReportingMode 0) echoZero) ∧
    (ends (.setReportingMode 0) echoZero).blk.rxBuf[4] = (0 : Word).extractLsb' 0 8 :=
  ⟨⟨⟨⟨rfl, rfl⟩, by decide, rfl⟩, by decide, rfl, by decide⟩, by decide⟩
theorem test_witness_SetMismatchResult : ValidFrameEnds (ends (.setReportingMode 1) echoZero) ∧
    (ends (.setReportingMode 1) echoZero).blk.rxBuf[4] ≠ (1 : Word).extractLsb' 0 8 :=
  ⟨⟨⟨⟨rfl, rfl⟩, by decide, rfl⟩, by decide, rfl, by decide⟩, by decide⟩
/-- `InterpretationFollowsTable` has the same hypothesis. -/
theorem test_witness_MeasurementResult : ValidFrameEnds (ends (.queryData 0) dataReply) :=
  ⟨⟨⟨rfl, rfl⟩, by decide, rfl⟩, by decide, rfl, by decide⟩

theorem test_witness_WrongLengthResult : ∀ n ∈ [(0 : BitVec 8), 8, 10, 255],
    Reading (reading (.queryData 0) dataReply n 0xAB) ∧
      (reading (.queryData 0) dataReply n 0xAB).pins.rx = some 0xAB ∧
      (reading (.queryData 0) dataReply n 0xAB).blk.rxLen ≠ 9 := by
  unfold Reading InState; decide
theorem test_witness_WrongChecksumResult :
    Reading (ends (.queryData 0) (dataReply.set 8 0x20)) ∧
      (ends (.queryData 0) (dataReply.set 8 0x20)).pins.rx = some 0xAB ∧
      (ends (.queryData 0) (dataReply.set 8 0x20)).blk.rxLen = 9 ∧
      (0x0A + 0x00 + 0x14 + 0x00 + 0xA1 + 0x60 : Byte) ≠ 0x20 := by
  unfold Reading InState; decide
/-- For `ByteCapture` and `ReadContinues`: the first byte, the tenth, the eleventh and one past saturation. -/
theorem test_witness_ByteCapture : ∀ n ∈ [(0 : BitVec 8), 9, 10, 255],
    Reading (reading (.queryData 0) dataReply n 0x55) ∧
      (reading (.queryData 0) dataReply n 0x55).pins.rx = some 0x55 := by
  unfold Reading InState; decide
theorem test_witness_TimerCountsReadCycles_silent :
    Reading (atTimer 99 calm []) ∧ (atTimer 99 calm []).pins.rx = none := ⟨⟨⟨rfl, rfl⟩, by decide, rfl⟩, rfl⟩
theorem test_witness_TimerCountsReadCycles_next :
    InState (atTimer 0 calm [0x55]) .rx ∧ ∃ t, exec (.queryData 0) (atTimer 0 calm [0x55]) = .next t ∧ t.blk.fsm = .rx :=
  ⟨⟨rfl, rfl⟩, _, rfl, rfl⟩
theorem test_witness_ReadTimesOut :
    InState (atTimer 100 calm [0xAB]) .rx ∧
      (atTimer 100 calm [0xAB]).blk.timer.toNat = (atTimer 100 calm [0xAB]).cfg.timeoutCycles := ⟨⟨rfl, rfl⟩, rfl⟩
theorem test_witness_ReadFailure :
    InState (atTimer 99 { calm with rxErr := true } [0xAB]) .rx ∧
      (atTimer 99 { calm with rxErr := true } [0xAB]).blk.timer.toNat < 100 ∧
      (atTimer 99 { calm with rxErr := true } [0xAB]).pins.rxErr = true := ⟨⟨rfl, rfl⟩, by decide, rfl⟩

/-- Every arm of the answer: none, a failure, a short and a long count, the whole frame. -/
theorem test_witness_WriteAnswerResult :
    ∀ a ∈ [none, some ⟨true, 19⟩, some ⟨false, 18⟩, some ⟨false, 20⟩, some ⟨false, 19⟩],
      InState (writing (.getWorkMode 0) a) .txw ∧ (writing (.getWorkMode 0) a).pins.tx = a := by
  unfold InState; decide
theorem test_witness_UnansweredWriteHangs :
    (writing (.getWorkMode 0) none).blk.fsm = .txw ∧ (writing (.getWorkMode 0) none).blk.op.toNat ≤ 8 ∧
      (writing (.getWorkMode 0) none).blk.err.toNat ≤ 8 ∧
      NextDrives (writing (.getWorkMode 0) none) 1 (fun d => d.rst = false ∧ d.answer = none) ∧
      (state { Block.reset with fsm := .txw } { calm with rst := true }).pins.rst = true := by
  unfold NextDrives; decide
theorem test_witness_WriteBeforeRead_answered :
    ∃ t, step (writing (.getWorkMode 0) (some ⟨false, 19⟩)) = .next t ∧ t.blk.fsm = .rx := ⟨_, rfl, rfl⟩
theorem test_witness_WriteBeforeRead_no_write :
    (asked (.waitForData 4)).blk.fsm ≠ .rx ∧ ∃ t, step (asked (.waitForData 4)) = .next t ∧ t.blk.fsm = .rx :=
  ⟨by decide, _, rfl, rfl⟩
theorem test_witness_WriteBeforeRead_failed :
    ∃ t, step (writing (.getWorkMode 0) (some ⟨true, 0⟩)) = .next t ∧
      t.blk.err ≠ (writing (.getWorkMode 0) (some ⟨true, 0⟩)).blk.err := ⟨_, rfl, by decide⟩
theorem test_witness_OneWritePerTransaction_first :
    (∃ t, step (writing (.getWorkMode 0) none) = .next t ∧ t.blk.fsm = .txw) ∧
      (writing (.getWorkMode 0) none).blk.txReqQ = false := ⟨⟨_, rfl, rfl⟩, rfl⟩
theorem test_witness_OneWritePerTransaction_later :
    ∃ t, step (state { Block.reset with fsm := .txw, op := 1, txReqQ := true } calm) = .next t ∧ t.blk.fsm = .txw :=
  ⟨_, rfl, rfl⟩
theorem test_witness_OneWritePerTransaction_accept :
    (asked (.getFirmware 0)).blk.fsm ≠ .txw ∧ ∃ t, step (asked (.getFirmware 0)) = .next t ∧ t.blk.fsm = .txw :=
  ⟨by decide, _, rfl, rfl⟩

/-- An idle cycle without a request; for `QuietIdleCycle` and, with both policies and a byte on offer, for
`IdleBytesByPolicy`. -/
theorem test_witness_QuietIdleCycle : ∀ c ∈ [hold100, drop100],
    InState (state Block.reset calm [0x55] c) .idle ∧ (state Block.reset calm [0x55] c).blk.err.toNat ≤ 8 ∧
      (state Block.reset calm [0x55] c).pins.req = none ∧ (state Block.reset calm [0x55] c).pins.rx = some 0x55 := by
  unfold InState; decide
theorem test_witness_IdleBytesByPolicy_hold :
    ∃ t, step (state Block.reset calm [0x55] hold100) = .next t ∧ t.env.chanIn = [0x55] := ⟨_, rfl, rfl⟩
theorem test_witness_IdleBytesByPolicy_drop :
    ∃ t, step (state Block.reset calm [0x55] drop100) = .next t ∧ t.env.chanIn = [] := ⟨_, rfl, rfl⟩
/-- An accept cycle under `Drop` with a byte on offer, of a refused and of a reserved request (notes/assumptions/12.md): the
request ends at once and the byte is discarded. -/
theorem test_witness_IdleBytesByPolicy_drop_accept : ∀ r ∈ [(⟨6, 31⟩ : Request), ⟨9, 0⟩],
    InState (state Block.reset { calm with req := some r } [0x55, 1] drop100) .idle ∧
      (state Block.reset { calm with req := some r } [0x55, 1] drop100).pins.rx = some 0x55 ∧
      (state Block.reset { calm with req := some r } [0x55, 1] drop100).pins.req = some r := by
  unfold InState; decide
theorem test_witness_IdleBytesByPolicy_drop_refused :
    ∃ t, step (state Block.reset { calm with req := some ⟨6, 31⟩ } [0x55, 1] drop100) = .next t ∧ t.blk.err = 6 ∧
      t.env.chanIn = [1] := ⟨_, rfl, rfl, rfl⟩
theorem test_witness_IdleBytesByPolicy_drop_reserved :
    ∃ t, step (state Block.reset { calm with req := some ⟨9, 0⟩ } [0x55, 1] drop100) = .next t ∧ t.blk.err = 7 ∧
      t.env.chanIn = [1] := ⟨_, rfl, rfl, rfl⟩
/-- For `ResetCycle` and `ResetLeavesChannel`: a reset in the middle of a read, and a second reset cycle. -/
theorem test_witness_ResetCycle :
    (atTimer 5 { calm with rst := true } [0x55]).pins.rst = true ∧
      (atTimer 5 { calm with rst := true } [0x55]).drive.answer = none ∧
      ∃ t, step ⟨hold100, { Block.reset with fsm := .rx },
        { Env.start with drives := [{ calm with rst := true }, { calm with rst := true }] }⟩ = .next t ∧
        t.pins.rst = true := ⟨rfl, rfl, _, rfl, rfl⟩

/-- For `PulseAndDoneFollowCompletion`, `ResultsChangeOnlyAtCompletion` and `OpAndArgWrittenOnlyOnAccept`: an accept that
starts a transaction. -/
theorem test_witness_accept_starts :
    (asked (.getFirmware 2)).pins.rst = false ∧ (asked (.getFirmware 2)).blk.fsm = .idle ∧
      (asked (.getFirmware 2)).pins.req = some ⟨0, 2⟩ ∧
      ∃ t, step (asked (.getFirmware 2)) = .next t ∧ t.blk.pulse = false := ⟨rfl, rfl, rfl, _, rfl, rfl⟩
/-- The same statements: a completion with a new time stamp. -/
theorem test_witness_completion :
    (ends (.queryData 0) dataReply).pins.rst = false ∧
      ∃ t, step (ends (.queryData 0) dataReply) = .next t ∧ t.blk.pulse = true ∧
        t.blk.ts ≠ (ends (.queryData 0) dataReply).blk.ts := ⟨rfl, _, rfl, rfl, by decide⟩
/-- The same statements: an error completion, and a busy cycle that completes nothing. -/
theorem test_witness_error_and_busy :
    (∃ t, step (atTimer 100 calm []) = .next t ∧ t.blk.err ≠ 0) ∧
      ∃ t, step (atTimer 5 calm []) = .next t ∧ t.blk.pulse = false ∧ (atTimer 5 calm []).blk.fsm ≠ .idle :=
  ⟨⟨_, rfl, by decide⟩, _, rfl, rfl, by decide⟩
theorem test_witness_UnassignedNumbersReadZero :
    (∀ n ∈ [(0x08 : BitVec 5), 0x0F, 0x1A, 0x1F],
      (0x08 ≤ n.toNat ∧ n.toNat ≤ 0x0F) ∨ (0x1A ≤ n.toNat ∧ n.toNat ≤ 0x1F)) ∧
      (asked (.getFirmware 0)).env.drives = { calm with req := some ⟨0, 0⟩ } :: [] := by decide

theorem test_witness_OperationFrame_idle :
    (asked (.getWorkMode 0)).pins.rst = false ∧ ∃ t, exec (.getWorkMode 0) (asked (.getWorkMode 0)) = .next t ∧
      t.blk.fsm = .txw := ⟨rfl, _, rfl, rfl⟩
theorem test_witness_OperationFrame_txw :
    (writing (.getWorkMode 0) none).pins.rst = false ∧
      ∃ t, exec (.getWorkMode 0) (writing (.getWorkMode 0) none) = .next t ∧ t.blk.fsm = .txw := ⟨rfl, _, rfl, rfl⟩
theorem test_witness_OperationFrame_rx :
    (atTimer 99 calm []).byteTaken = false ∧ (∃ t, exec (.queryData 0) (atTimer 99 calm []) = .next t ∧ t.blk.fsm = .rx) ∧
      ∃ t, exec (.setWorkMode 1) (ends (.setWorkMode 1) echoZero) = .next t ∧ t.blk.fsm = .idle ∧ t.blk.err ≠ 0 :=
  ⟨rfl, ⟨_, rfl, rfl⟩, _, rfl, rfl, by decide⟩
theorem test_witness_BytesConsumedInOrder :
    (atTimer 99 calm [1, 2]).byteTaken = true ∧ (∃ t, step (atTimer 99 calm [1, 2]) = .next t ∧ t.env.chanIn = [2]) ∧
      ∃ t, step (atTimer 100 calm [1, 2]) = .next t ∧ t.env.chanIn = [1, 2] := ⟨rfl, ⟨_, rfl, rfl⟩, _, rfl, rfl⟩
/-- The write of `writing (.getWorkMode 0)` among other inputs. -/
def writingNoisy (answer : Option WriteAnswer) : State :=
  state (writing (.getWorkMode 0) none).blk
    { calm with answer := answer, req := some ⟨7, 1⟩, timeIn := 8, rxErr := true } [0xAB]
/-- The read of `atTimer 99 calm [0x55]` among other inputs: a late write answer is due. -/
def readingNoisy : State :=
  { cfg := hold100
    blk := (atTimer 99 calm [0x55]).blk
    env := { Env.start with
      drives := [{ calm with req := some ⟨7, 1⟩, answer := some ⟨true, 0⟩ }], owed := 1, chanIn := [0x55, 0xAB] } }
/-- Two idle blocks whose channels and inputs differ in everything an idle block does not see. -/
theorem test_witness_BlockSeesOnlyItsPins :
    (state Block.reset calm [1]).pins.rst = (state Block.reset { calm with timeIn := 8, rxErr := true } [2]).pins.rst ∧
      (state Block.reset calm [1]).pins.req = (state Block.reset { calm with timeIn := 8, rxErr := true } [2]).pins.req ∧
      (state Block.reset calm [1]).pins ≠ (state Block.reset { calm with timeIn := 8, rxErr := true } [2]).pins ∧
      ∃ t, step (state Block.reset calm [1]) = .next t := ⟨rfl, rfl, by decide, _, rfl⟩
/-- Two blocks in `TXW` that get the same answer, and differ in request, time, read failure and inbound bytes. -/
theorem test_witness_BlockSeesOnlyItsPins_txw :
    (writing (.getWorkMode 0) (some ⟨false, 19⟩)).blk = (writingNoisy (some ⟨false, 19⟩)).blk ∧
      (writing (.getWorkMode 0) (some ⟨false, 19⟩)).cfg = (writingNoisy (some ⟨false, 19⟩)).cfg ∧
      (writing (.getWorkMode 0) (some ⟨false, 19⟩)).pins.rst = (writingNoisy (some ⟨false, 19⟩)).pins.rst ∧
      (writing (.getWorkMode 0) (some ⟨false, 19⟩)).pins.tx = (writingNoisy (some ⟨false, 19⟩)).pins.tx ∧
      (writing (.getWorkMode 0) (some ⟨false, 19⟩)).pins ≠ (writingNoisy (some ⟨false, 19⟩)).pins ∧
      ∃ t, step (writing (.getWorkMode 0) (some ⟨false, 19⟩)) = .next t :=
  ⟨rfl, rfl, rfl, by decide, by decide, _, rfl⟩
/-- Two blocks in `RX` that are offered the same byte at the same time, and differ in request, late write answer and the rest of
the channel's queue. -/
theorem test_witness_BlockSeesOnlyItsPins_rx :
    (atTimer 99 calm [0x55]).blk = readingNoisy.blk ∧ (atTimer 99 calm [0x55]).cfg = readingNoisy.cfg ∧
      (atTimer 99 calm [0x55]).pins.rst = readingNoisy.pins.rst ∧ (atTimer 99 calm [0x55]).pins.rx = readingNoisy.pins.rx ∧
      (atTimer 99 calm [0x55]).pins.rxErr = readingNoisy.pins.rxErr ∧
      (atTimer 99 calm [0x55]).pins.timeIn = readingNoisy.pins.timeIn ∧
      (atTimer 99 calm [0x55]).pins ≠ readingNoisy.pins ∧ ∃ t, step (atTimer 99 calm [0x55]) = .next t :=
  ⟨rfl, rfl, rfl, by decide, rfl, rfl, by decide, _, rfl⟩
/-- Two blocks beyond the window fault alike. -/
theorem test_witness_BlockSeesOnlyItsPins_fault : step (atTimer 101 calm []) = .fault .timerBeyondWindow := by rfl

theorem test_witness_ChecksumIgnoresOrder : [(1 : Byte), 0xFF, 2].Perm [2, 1, 0xFF] := by decide
theorem test_witness_CommandFrameLayout : ∀ i ∈ [Instr.setWorkPeriod 0, .setWorkPeriod 30, .queryData 0],
    specAdmit (encode i).op (encode i).arg = .ok ∧ (encode i).op ≠ 8 ∧ (asked i).blk.fsm = .idle ∧
      (asked i).pins.rst = false := by decide
theorem test_witness_CommandFrameChecksums : ∀ i ∈ [Instr.setWorkPeriod 30, .setWorkMode 1, .setReportingMode 0],
    specAdmit (encode i).op (encode i).arg = .ok ∧ (specTemplate (encode i).op (encode i).arg).isSome := by decide
/-- Two accepts of one operation, whose arguments it ignores, send the same frame. -/
theorem test_witness_CommandFramesTellRequestsApart :
    InState (asked (.getWorkMode 5)) .idle ∧ InState (asked (.getWorkMode 6)) .idle ∧
      ∃ t t', exec (.getWorkMode 5) (asked (.getWorkMode 5)) = .next t ∧
        exec (.getWorkMode 6) (asked (.getWorkMode 6)) = .next t' ∧ t.blk.fsm = .txw ∧ t'.blk.fsm = .txw ∧
        t.blk.txFrame = t'.blk.txFrame := ⟨⟨rfl, rfl⟩, ⟨rfl, rfl⟩, _, _, rfl, rfl, rfl, rfl, rfl⟩
/-- The clause for an operation that sends its argument, at the largest argument admitted. -/
theorem test_witness_CommandFramesTellRequestsApart_set :
    InState (asked (.setWorkPeriod 30)) .idle ∧ (Instr.setWorkPeriod 30).usesArg = true ∧
      ∃ t, exec (.setWorkPeriod 30) (asked (.setWorkPeriod 30)) = .next t ∧ t.blk.fsm = .txw :=
  ⟨⟨rfl, rfl⟩, rfl, _, rfl, rfl⟩
theorem test_witness_BoundedCaptureGivesSameVerdict :
    (∀ x ∈ dataReply.toList.take 9, x ≠ 0xAB) ∧
      validate ((dataReply.toList.take 9 ++ [0xAB]).foldl Block.capture (Block.reset.accept ⟨7, 0⟩)).rxBuf
        ((dataReply.toList.take 9 ++ [0xAB]).foldl Block.capture (Block.reset.accept ⟨7, 0⟩)).rxLen = .ok := by decide

/-! Witnesses for the statements about the whole machine -/

theorem test_witness_Start : Start (state Block.reset calm) := ⟨rfl, rfl⟩

/-- A read in the first cycle of a window of one cycle. -/
def shortRead (d : Drive) : State :=
  ⟨⟨1, 1, .hold⟩, { Block.reset with fsm := .rx, op := 8 }, { Env.start with drives := [d, d] }⟩

theorem shortRead_invariant (d : Drive) : Invariant (shortRead d) := by
  constructor <;> simp [shortRead, Block.reset, Env.start, Config.wf, specAdmit, CaptureClean, delimiter]

theorem test_witness_StepKeepsInvariant : Invariant (shortRead calm) ∧ ∃ t, step (shortRead calm) = .next t :=
  ⟨shortRead_invariant _, _, rfl⟩
theorem test_witness_ReadEndsWithinWindow : Invariant (shortRead calm) ∧ (shortRead calm).blk.fsm = .rx :=
  ⟨shortRead_invariant _, rfl⟩
theorem test_witness_ReadWithoutDelimiterTimesOut :
    Invariant (shortRead { calm with arrive := [0x55] }) ∧ (shortRead { calm with arrive := [0x55] }).blk.fsm = .rx ∧
      (∀ x ∈ (shortRead { calm with arrive := [0x55] }).env.chanIn, x ≠ 0xAB) ∧
      NextDrives (shortRead { calm with arrive := [0x55] })
        ((shortRead { calm with arrive := [0x55] }).cfg.timeoutCycles -
          (shortRead { calm with arrive := [0x55] }).blk.timer.toNat + 1)
        (fun d => d.rst = false ∧ d.rxErr = false ∧ ∀ x ∈ d.arrive, x ≠ 0xAB) :=
  ⟨shortRead_invariant _, rfl, by decide, by unfold NextDrives; decide⟩

/-- A host that asks for `i` in the first cycle, with a channel that holds the firmware reply, one more byte, and answers a
write at once. -/
def session (i : Instr) : State :=
  ⟨⟨2, 10, .hold⟩, Block.reset,
    { Env.start with
      drives := { calm with answer := some ⟨false, 19⟩, req := some (encode i) } ::
        List.replicate 11 { calm with answer := some ⟨false, 19⟩, timeIn := 9 }
      chanIn := (firmwareReply.set 9 0xAB).toList ++ [0x55] }⟩

/-- The hypotheses on the frame in the channel, for `ShortestTransaction` and `ShortestWaitForData`. -/
theorem test_witness_frame :
    (∀ j (h : j < 9), (firmwareReply.set 9 0xAB)[j] ≠ 0xAB) ∧ (firmwareReply.set 9 0xAB)[9] = 0xAB ∧
      checksum [0x07, 0x12, 0x03, 0x16, 0xA1, 0x60] = (firmwareReply.set 9 0xAB)[8] := by decide
theorem test_witness_ShortestTransaction :
    (session (.getFirmware 0)).blk.fsm = .idle ∧ (session (.getFirmware 0)).blk.err.toNat ≤ 8 ∧
      10 ≤ (session (.getFirmware 0)).cfg.timeoutCycles ∧ specAdmit 0 0 = .ok ∧ (specTemplate 0 0).isSome ∧
      (session (.getFirmware 0)).env.chanIn = (firmwareReply.set 9 0xAB).toList ++ [0x55] ∧
      NextDrives (session (.getFirmware 0)) 12 (fun d => d.rst = false ∧ d.answer = some ⟨false, 19⟩ ∧ d.arrive = [] ∧
        d.offer = true ∧ d.rxErr = false) ∧
      (session (.getFirmware 0)).pins.req = some (encode (.getFirmware 0)) ∧
      (∃ last, (session (.getFirmware 0)).env.drives[11]? = some last ∧
        (specInterpret 0 0 (firmwareReply.set 9 0xAB) last.timeIn).isSome) :=
  ⟨rfl, by decide, by decide, by decide, by decide, rfl, by unfold NextDrives; decide, rfl, _, rfl, by decide⟩
theorem test_witness_ShortestWaitForData :
    (session (.waitForData 6)).blk.fsm = .idle ∧
      NextDrives (session (.waitForData 6)) 11 (fun d => d.rst = false ∧ d.arrive = [] ∧ d.offer = true ∧
        d.rxErr = false) ∧
      (session (.waitForData 6)).pins.req = some (encode (.waitForData 6)) ∧
      ∃ last, (session (.waitForData 6)).env.drives[10]? = some last :=
  ⟨rfl, by unfold NextDrives; decide, rfl, _, rfl⟩
/-- The lower bounds of `ShortestTransaction` and `ShortestWaitForData`: an operation that is done before the bound, with an
error, after an accept that meets the hypotheses (a failed write, and a read failure in the first cycle). -/
theorem test_witness_ShortestTransaction_bound :
    ∃ s t : State, InState s .idle ∧ s.pins.req = some (encode (.getFirmware 0)) ∧ specAdmit 0 0 = .ok ∧
      runFor 2 s = .next t ∧ t.blk.done = true :=
  ⟨⟨hold100, Block.reset, { Env.start with
      drives := [{ calm with req := some ⟨0, 0⟩ }, { calm with answer := some ⟨true, 0⟩ }] }⟩,
    _, ⟨rfl, rfl⟩, rfl, by decide, rfl, rfl⟩
theorem test_witness_ShortestWaitForData_bound :
    ∃ s t : State, InState s .idle ∧ s.pins.req = some (encode (.waitForData 0)) ∧ runFor 2 s = .next t ∧
      t.blk.done = true :=
  ⟨⟨hold100, Block.reset, { Env.start with
      drives := [{ calm with req := some ⟨8, 0⟩ }, { calm with rxErr := true }] }⟩, _, ⟨rfl, rfl⟩, rfl, rfl, rfl⟩
theorem test_witness_ResultsStableUntilNextAccept :
    (state { Block.reset with err := 8, done := true } calm).blk.fsm = .idle ∧
      (state { Block.reset with err := 8, done := true } calm).blk.err.toNat ≤ 8 ∧
      NextDrives (state { Block.reset with err := 8, done := true } calm) 1 (fun d => d.rst = false ∧ d.req = none) := by
  unfold NextDrives; decide

end Sys2Proof.Tests
end

section
/-! Construction of a configuration, 00_scope.md R5: the bounds `Config.make` refuses by are those of `Config.wf`. -/

namespace Sys2Proof

theorem Config.wf_iff (c : Config) :
    c.wf = true ↔ 0 < c.clkHz ∧ 1 ≤ c.timeoutCycles ∧ c.timeoutCycles < 2 ^ 32 := by
  simp [Config.wf, and_assoc]

/-- Each of the three refusals denies one bound of R5, and the last branch is reached exactly when all three hold. -/
theorem Config.make_eq_ok_iff {clk t : Nat} {p : RxIdlePolicy} {c : Config} :
    Config.make clk t p = .ok c ↔ c = ⟨clk, t, p⟩ ∧ 0 < clk ∧ 1 ≤ t ∧ t < 2 ^ 32 := by
  unfold Config.make
  split_ifs with hclk hzero hlong
  · simp [hclk]
  · simp [hzero]
  · simp only [hlong.not_gt, and_false]
  · have bounds : 0 < clk ∧ 1 ≤ t ∧ t < 2 ^ 32 := by omega
    simp only [Except.ok.injEq, bounds, and_true]
    exact eq_comm

theorem Config.make_ok_wf {clk t : Nat} {p : RxIdlePolicy} {c : Config} (h : Config.make clk t p = .ok c) :
    c.wf = true := by
  obtain ⟨rfl, bounds⟩ := Config.make_eq_ok_iff.mp h
  exact (Config.wf_iff _).mpr bounds

/-- Settles O60, by the cases of the three refusals of `Config.make`. -/
theorem configurationRefusedAtConstruction : Obligations.ConfigurationRefusedAtConstruction :=
  fun _ _ _ => ⟨fun _ => Config.make_eq_ok_iff, fun _ => Config.make_ok_wf⟩

end Sys2Proof
end

section
/-! What a step can answer (42_transaction.md R151, 93_implementation_defined.md part 2). `Cycle s b` says that a cycle
without reset takes `s` to the registers `b`, `Stops s f` that `s` stops with the fault `f`; `step_cases` says that a step
is a reset, a cycle or a stop. -/

namespace Sys2Proof.Machine

/-! Fetch and decode -/

/-- A request that holds no reserved code is the request of an operation, 30_encoding.md R90. -/
theorem exists_encode_of_op_le {r : Request} (h : r.op.toNat ≤ 8) : ∃ i, encode i = r := by
  obtain ⟨i, hi⟩ := decode_ok_of_le h
  exact ⟨i, encode_of_decode hi⟩

theorem fetchRequest_encode (i : Instr) : fetchRequest (encode i) = .run i := by
  simp only [fetchRequest, decode_encode_request]

theorem fetchRequest_reserved {r : Request} (h : 9 ≤ r.op.toNat) : fetchRequest r = .reserved r := by
  simp only [fetchRequest, decode_error_of_ge h]

theorem fetchBusy_of_encode {b : Block} {i : Instr} (h : encode i = ⟨b.op, b.arg⟩) : fetchBusy b = .run i := by
  simp only [fetchBusy, ← h, decode_encode_request]

theorem fetchBusy_reserved {b : Block} (h : 9 ≤ b.op.toNat) : fetchBusy b = .stop .opReservedBusy := by
  simp only [fetchBusy, decode_error_of_ge (r := ⟨b.op, b.arg⟩) h]

theorem step_of_fetch_run {s : State} {i : Instr} (h : fetch s = .run i) : step s = operate (operationFor i) s := by
  rw [step, h, ← exec_eq_operate]

theorem step_of_fetch_stop {s : State} {f : Fault} (h : fetch s = .stop f) : step s = .fault f := by
  rw [step, h]

/-! Cycles -/

/-- A cycle without reset that leaves the block with these registers, 42_transaction.md R151: one constructor per arm. -/
inductive Cycle (s : State) : Block → Prop
  /-- R152. -/
  | quiet (hf : s.blk.fsm = .idle) (hq : s.pins.req = none) : Cycle s s.ticked
  /-- 30_encoding.md R92. -/
  | reserved (r : Request) (hf : s.blk.fsm = .idle) (hq : s.pins.req = some r) (ho : 9 ≤ r.op.toNat) :
      Cycle s ((s.ticked.accept r).endOperation .malformedInput)
  /-- R154, R155. -/
  | accepted (i : Instr) (hf : s.blk.fsm = .idle) (hq : s.pins.req = some (encode i)) :
      Cycle s ((s.ticked.accept (encode i)).admitRequest (operationFor i))
  /-- R157, R158. -/
  | writing (i : Instr) (hf : s.blk.fsm = .txw) (ho : encode i = ⟨s.blk.op, s.blk.arg⟩) :
      Cycle s (s.ticked.txStep s.pins.tx)
  /-- R160 to R164. -/
  | reading (i : Instr) (hf : s.blk.fsm = .rx) (ho : encode i = ⟨s.blk.op, s.blk.arg⟩)
      (hw : s.blk.timer.toNat < s.cfg.timeoutCycles) : Cycle s (s.ticked.rxOpen (operationFor i) s.pins)
  /-- R159. -/
  | timedOut (i : Instr) (hf : s.blk.fsm = .rx) (ho : encode i = ⟨s.blk.op, s.blk.arg⟩)
      (hw : s.blk.timer.toNat = s.cfg.timeoutCycles) : Cycle s (s.ticked.endOperation .timeoutError)

theorem Cycle.step_eq {s : State} {b : Block} (hr : s.pins.rst = false) (he : s.blk.err.toNat ≤ 8) (h : Cycle s b) :
    step s = .next (s.advance b) := by
  have busy {i : Instr} (hf : s.blk.fsm = .txw ∨ s.blk.fsm = .rx) (ho : encode i = ⟨s.blk.op, s.blk.arg⟩) :
      step s = operate (operationFor i) s :=
    step_of_fetch_run ((fetch_busy hr he hf).trans (fetchBusy_of_encode ho))
  cases h with
  | quiet hf hq => rw [step, fetch_quiet hr he hf hq]; rfl
  | reserved r hf hq ho => rw [step, fetch_idle hr he hf hq, fetchRequest_reserved ho]; rfl
  | accepted i hf hq =>
    rw [step_of_fetch_run ((fetch_idle hr he hf hq).trans (fetchRequest_encode i)), operate_of_idle hr hf,
      operationFor_code, operationFor_arg]
  | writing i hf ho => rw [busy (.inl hf) ho, operate_of_txw hr hf]
  | reading i hf ho hw => rw [busy (.inr hf) ho, operate_of_rx hr hf hw]
  | timedOut i hf ho hw => rw [busy (.inr hf) ho, operate_of_timeout hr hf hw]

/-! Stops -/

/-- The fault a state without reset stops with, notes/assumptions/9.md. -/
inductive Stops (s : State) : Fault → Prop
  | errReserved (he : 8 < s.blk.err.toNat) : Stops s .errReserved
  | fsmUnused (he : s.blk.err.toNat ≤ 8) (hf : s.blk.fsm = .unused) : Stops s .fsmUnused
  | opReservedBusy (he : s.blk.err.toNat ≤ 8) (hf : s.blk.fsm = .txw ∨ s.blk.fsm = .rx) (ho : 9 ≤ s.blk.op.toNat) :
      Stops s .opReservedBusy
  | timerBeyondWindow (he : s.blk.err.toNat ≤ 8) (hf : s.blk.fsm = .rx) (ho : s.blk.op.toNat ≤ 8)
      (hw : s.cfg.timeoutCycles < s.blk.timer.toNat) : Stops s .timerBeyondWindow

theorem operate_beyond_window {o : Operation} {s : State} (hr : s.pins.rst = false) (hf : s.blk.fsm = .rx)
    (hw : s.cfg.timeoutCycles < s.blk.timer.toNat) : operate o s = .fault .timerBeyondWindow := by
  have closed : inWindow s.cfg s.ticked = false := decide_eq_false hw.not_gt
  have past : s.ticked.timer.toNat ≠ s.cfg.timeoutCycles := hw.ne'
  simp only [operate, hr, hf, Block.rxStep, closed, past, Bool.false_eq_true, if_false]

theorem Stops.step_eq {s : State} {f : Fault} (hr : s.pins.rst = false) (h : Stops s f) : step s = .fault f := by
  cases h with
  | errReserved he => exact step_of_fetch_stop (by simp only [fetch, hr, he, Bool.false_eq_true, if_false, if_true])
  | fsmUnused he hf => exact step_of_fetch_stop (by simp only [fetch, hr, he.not_gt, hf, Bool.false_eq_true, if_false])
  | opReservedBusy he hf ho => exact step_of_fetch_stop ((fetch_busy hr he hf).trans (fetchBusy_reserved ho))
  | timerBeyondWindow he hf ho hw =>
    obtain ⟨i, hi⟩ := exists_encode_of_op_le (r := ⟨s.blk.op, s.blk.arg⟩) ho
    rw [step_of_fetch_run ((fetch_busy hr he (.inr hf)).trans (fetchBusy_of_encode hi)), operate_beyond_window hr hf hw]

/-- Outside a reset, a state either stops or has a cycle. -/
theorem stops_or_cycle (s : State) : (∃ f, Stops s f) ∨ (s.blk.err.toNat ≤ 8 ∧ ∃ b, Cycle s b) := by
  by_cases he : 8 < s.blk.err.toNat
  · exact .inl ⟨_, .errReserved he⟩
  · have he := Nat.le_of_not_gt he
    have busy (hf : s.blk.fsm = .txw ∨ s.blk.fsm = .rx)
        (run : s.blk.op.toNat ≤ 8 → ∀ i, encode i = ⟨s.blk.op, s.blk.arg⟩ → (∃ f, Stops s f) ∨ ∃ b, Cycle s b) :
        (∃ f, Stops s f) ∨ ∃ b, Cycle s b := by
      rcases Nat.lt_or_ge 8 s.blk.op.toNat with ho | ho
      · exact .inl ⟨_, .opReservedBusy he hf ho⟩
      · obtain ⟨i, hi⟩ := exists_encode_of_op_le (r := ⟨s.blk.op, s.blk.arg⟩) ho
        exact run ho i hi
    suffices (∃ f, Stops s f) ∨ ∃ b, Cycle s b from this.imp_right fun hc => ⟨he, hc⟩
    cases hf : s.blk.fsm with
    | unused => exact .inl ⟨_, .fsmUnused he hf⟩
    | idle =>
      cases hq : s.pins.req with
      | none => exact .inr ⟨_, .quiet hf hq⟩
      | some r =>
        rcases Nat.lt_or_ge 8 r.op.toNat with ho | ho
        · exact .inr ⟨_, .reserved r hf hq ho⟩
        · obtain ⟨i, rfl⟩ := exists_encode_of_op_le ho
          exact .inr ⟨_, .accepted i hf hq⟩
    | txw => exact busy (.inl hf) fun _ i hi => .inr ⟨_, .writing i hf hi⟩
    | rx =>
      refine busy (.inr hf) fun ho i hi => ?_
      rcases Nat.lt_trichotomy s.blk.timer.toNat s.cfg.timeoutCycles with hw | hw | hw
      · exact .inr ⟨_, .reading i hf hi hw⟩
      · exact .inr ⟨_, .timedOut i hf hi hw⟩
      · exact .inl ⟨_, .timerBeyondWindow he hf ho hw⟩

/-- What a step can answer: the next state of a reset, the next state of a cycle, or a fault; never a refusal. -/
theorem step_cases (s : State) :
    (s.pins.rst = true ∧ step s = .next s.resetCycle) ∨
    (s.pins.rst = false ∧ s.blk.err.toNat ≤ 8 ∧ ∃ b, Cycle s b ∧ step s = .next (s.advance b)) ∨
    (s.pins.rst = false ∧ ∃ f, Stops s f ∧ step s = .fault f) := by
  cases hr : s.pins.rst with
  | true => exact .inl ⟨rfl, step_reset hr⟩
  | false =>
    rcases stops_or_cycle s with ⟨f, hs⟩ | ⟨he, b, hc⟩
    · exact .inr (.inr ⟨rfl, f, hs, hs.step_eq hr⟩)
    · exact .inr (.inl ⟨rfl, he, b, hc, hc.step_eq hr he⟩)

/-- A step without reset that answers a next state is a cycle. -/
theorem cycle_of_step {s t : State} (hr : s.pins.rst = false) (h : step s = .next t) :
    s.blk.err.toNat ≤ 8 ∧ Cycle s t.blk := by
  rcases step_cases s with ⟨hr', -⟩ | ⟨-, he, b, hc, h'⟩ | ⟨-, f, -, h'⟩
  · rw [hr] at hr'; cases hr'
  · rw [h'] at h; cases h; exact ⟨he, hc⟩
  · rw [h'] at h; cases h

theorem step_ne_refused (s : State) (r : Refusal) : step s ≠ .refused r := by
  rcases step_cases s with ⟨-, h⟩ | ⟨-, -, b, -, h⟩ | ⟨-, f, -, h⟩ <;> simp [h]

theorem step_fault_iff {s : State} {f : Fault} : step s = .fault f ↔ s.pins.rst = false ∧ Stops s f := by
  refine ⟨fun h => ?_, fun ⟨hr, hs⟩ => hs.step_eq hr⟩
  rcases step_cases s with ⟨-, h'⟩ | ⟨-, -, b, -, h'⟩ | ⟨hr, g, hs, h'⟩ <;> rw [h'] at h <;> cases h
  exact ⟨hr, hs⟩

theorem stops_iff (s : State) (f : Fault) : Stops s f ↔
    (f = .errReserved ∧ 8 < s.blk.err.toNat) ∨
    (s.blk.err.toNat ≤ 8 ∧
      ((f = .fsmUnused ∧ s.blk.fsm = .unused) ∨
       (f = .opReservedBusy ∧ (s.blk.fsm = .txw ∨ s.blk.fsm = .rx) ∧ 9 ≤ s.blk.op.toNat) ∨
       (f = .timerBeyondWindow ∧ s.blk.fsm = .rx ∧ s.blk.op.toNat ≤ 8 ∧
         s.cfg.timeoutCycles < s.blk.timer.toNat))) := by
  constructor
  · rintro (he | ⟨he, hf⟩ | ⟨he, hf, ho⟩ | ⟨he, hf, ho, hw⟩) <;> simp [*]
  · rintro (⟨rfl, he⟩ | ⟨he, ⟨rfl, hf⟩ | ⟨rfl, hf, ho⟩ | ⟨rfl, hf, ho, hw⟩⟩)
    · exact .errReserved he
    · exact .fsmUnused he hf
    · exact .opReservedBusy he hf ho
    · exact .timerBeyondWindow he hf ho hw

/-- Settles O5, by what a step can answer (`step_cases`) and the four constructors of `Stops`. -/
theorem stepStopsOnlyInUnreachableStates : Obligations.StepStopsOnlyInUnreachableStates :=
  fun s => ⟨step_ne_refused s, fun f => step_fault_iff.trans (and_congr_right fun _ => stops_iff s f)⟩

end Sys2Proof.Machine
end

section
/-! Noninterference: the next registers depend on nothing but the registers and the pins the current state reads. -/

namespace Sys2Proof.Machine

theorem Block.rxOpen_congr (b : Block) (o : Operation) {p q : Pins} (hx : p.rx = q.rx) (he : p.rxErr = q.rxErr)
    (ht : p.timeIn = q.timeIn) : b.rxOpen o p = b.rxOpen o q := by
  simp only [Block.rxOpen, hx, he, ht]

theorem Cycle.congr {s s' : State} {b : Block} (hc : s.cfg = s'.cfg) (hb : s.blk = s'.blk)
    (hr : s.pins.rst = s'.pins.rst) (hq : s.blk.fsm = .idle → s.pins.req = s'.pins.req)
    (ht : s.blk.fsm = .txw → s.pins.tx = s'.pins.tx)
    (hx : s.blk.fsm = .rx → s.pins.rx = s'.pins.rx ∧ s.pins.rxErr = s'.pins.rxErr ∧ s.pins.timeIn = s'.pins.timeIn)
    (h : Cycle s b) : Cycle s' b := by
  have hk : s.ticked = s'.ticked := by rw [State.ticked, State.ticked, hb, hr]
  cases h with
  | quiet hf hn => exact hk ▸ .quiet (hb ▸ hf) (hq hf ▸ hn)
  | reserved r hf hn ho => exact hk ▸ .reserved r (hb ▸ hf) (hq hf ▸ hn) ho
  | accepted i hf hn => exact hk ▸ .accepted i (hb ▸ hf) (hq hf ▸ hn)
  | writing i hf ho => exact hk ▸ ht hf ▸ .writing i (hb ▸ hf) (hb ▸ ho)
  | reading i hf ho hw =>
    obtain ⟨h1, h2, h3⟩ := hx hf
    rw [hk, Block.rxOpen_congr _ _ h1 h2 h3]
    exact .reading i (hb ▸ hf) (hb ▸ ho) (hb ▸ hc ▸ hw)
  | timedOut i hf ho hw => exact hk ▸ .timedOut i (hb ▸ hf) (hb ▸ ho) (hb ▸ hc ▸ hw)

theorem Stops.congr {s s' : State} {f : Fault} (hc : s.cfg = s'.cfg) (hb : s.blk = s'.blk) (h : Stops s f) :
    Stops s' f := by
  rw [stops_iff] at h ⊢
  rwa [← hb, ← hc]

/-- Settles O42: a reset cycle gives the reset registers, any other one is a cycle (`Cycle.congr`) or a stop
(`Stops.congr`) of both states. -/
theorem blockSeesOnlyItsPins : Obligations.BlockSeesOnlyItsPins := by
  intro s s' hc hb hr hq ht hx
  refine ⟨fun t h => ?_, fun f h => ?_⟩
  · rcases step_cases s with ⟨h1, h2⟩ | ⟨h1, he, b, hcy, h2⟩ | ⟨-, f, -, h2⟩ <;> rw [h2] at h <;> cases h
    · exact ⟨_, step_reset (hr ▸ h1), rfl⟩
    · exact ⟨_, (hcy.congr hc hb hr (hq h1) (ht h1) (hx h1)).step_eq (hr ▸ h1) (hb ▸ he), rfl⟩
  · obtain ⟨h1, hs⟩ := step_fault_iff.mp h
    exact step_fault_iff.mpr ⟨hr ▸ h1, hs.congr hc hb⟩

/-- A step is the same for the same registers, pins (but for `csr_addr`) and next environment. -/
theorem step_congr {s s' : State} (hc : s.cfg = s'.cfg) (hb : s.blk = s'.blk) (he : s.nextEnv = s'.nextEnv)
    (hr : s.pins.rst = s'.pins.rst) (hq : s.pins.req = s'.pins.req) (ht : s.pins.tx = s'.pins.tx)
    (hx : s.pins.rx = s'.pins.rx) (hxe : s.pins.rxErr = s'.pins.rxErr) (hti : s.pins.timeIn = s'.pins.timeIn) :
    step s = step s' := by
  obtain ⟨next, fault⟩ := blockSeesOnlyItsPins s s' hc hb hr (fun _ _ => hq) (fun _ _ => ht) fun _ _ => ⟨hx, hxe, hti⟩
  cases h : step s with
  | refused r => exact absurd h (step_ne_refused s r)
  | fault f => exact (fault f h).symm
  | next t =>
    obtain ⟨t', h', hblk⟩ := next t h
    obtain ⟨henv, hcfg⟩ := step_env h
    obtain ⟨henv', hcfg'⟩ := step_env h'
    rw [h']
    congr 1
    rw [State.mk.injEq]
    exact ⟨by rw [hcfg, hcfg', hc], hblk.symm, by rw [henv, henv', he]⟩

end Sys2Proof.Machine
end

section
/-! The register view and the outputs, 10_state.md R38 to R41. -/

namespace Sys2Proof.Machine

/-- The fields of `STATUS`, R39. -/
theorem statusWord_fields (b : Block) :
    (statusWord b).getLsbD 0 = busy b ∧ (statusWord b).getLsbD 1 = b.done ∧
    (statusWord b).extractLsb' 2 2 = b.fsm.bits ∧ (statusWord b).extractLsb' 4 4 = b.err ∧
    (statusWord b).extractLsb' 8 4 = b.op ∧ (statusWord b).extractLsb' 12 20 = 0 := by
  unfold statusWord
  refine ⟨?_, ?_, ?_, ?_, ?_, ?_⟩
  · rw [BitVec.getLsbD_append]; simp
  · rw [BitVec.getLsbD_append, BitVec.getLsbD_append]; simp
  · iterate 2 rw [BitVec.extractLsb'_append_eq_of_le (by decide)]
    exact BitVec.extractLsb'_append_eq_right
  · iterate 3 rw [BitVec.extractLsb'_append_eq_of_le (by decide)]
    exact BitVec.extractLsb'_append_eq_right
  · iterate 4 rw [BitVec.extractLsb'_append_eq_of_le (by decide)]
    exact BitVec.extractLsb'_append_eq_right
  · iterate 5 rw [BitVec.extractLsb'_append_eq_of_le (by decide)]
    exact BitVec.extractLsb'_eq_self

theorem busy_iff (b : Block) : busy b = true ↔ b.fsm ≠ .idle := by simp [busy]

theorem csrRead_status (b : Block) : csrRead b 0 = statusWord b := rfl

/-- Settles O36, by the fields of the word. -/
theorem statusFields : Obligations.StatusFields := by
  refine ⟨fun b => ?_, rfl⟩
  obtain ⟨hbusy, hdone, hfields⟩ := statusWord_fields b
  rw [csrRead_status, hbusy, busy_iff]
  exact ⟨.rfl, hdone, hfields⟩

/-- The capture buffer in the register view, R38. -/
theorem csrRead_rxBuf (b : Block) {j : Nat} (h : j < 10) :
    csrRead b (BitVec.ofNat 5 (0x10 + j)) = b.rxBuf[j].setWidth 32 := by
  have hn : (BitVec.ofNat 5 (0x10 + j)).toNat = 0x10 + j := by simp; omega
  unfold csrRead
  split
  case h_9 => simp only [hn, Nat.add_sub_cancel_left, Nat.le_add_right, h, and_self, dif_pos]
  all_goals omega

theorem setWidth_byte (x : Byte) : x.setWidth 32 = 0#24 ++ x := BitVec.setWidth_eq_append (by decide)

theorem setWidth_half (v : Half) : v.setWidth 32 = 0#16 ++ v := BitVec.setWidth_eq_append (by decide)

/-- Settles O37, number by number. -/
theorem registerView : Obligations.RegisterView := by
  refine fun b => ⟨setWidth_half _, setWidth_half _, setWidth_half _, ?_, setWidth_byte _, rfl, fun j h => ?_⟩
  · exact (BitVec.extractLsb'_append_extractLsb'_eq_extractLsb' rfl).trans BitVec.extractLsb'_eq_self
  · rw [csrRead_rxBuf b h, setWidth_byte]

theorem csrRead_unassigned (b : Block) {n : BitVec 5}
    (h : (0x08 ≤ n.toNat ∧ n.toNat ≤ 0x0F) ∨ (0x1A ≤ n.toNat ∧ n.toNat ≤ 0x1F)) : csrRead b n = 0 := by
  unfold csrRead
  split
  case h_9 => exact dif_neg (by omega)
  all_goals omega

/-- Settles O38: the registers do not see `csr_addr` (O42's statement), nor does the environment. -/
theorem unassignedNumbersReadZero : Obligations.UnassignedNumbersReadZero := by
  refine ⟨fun b n h => csrRead_unassigned b h, fun s d ds n hd => ?_⟩
  obtain ⟨cfg, blk, env⟩ := s
  obtain ⟨chanIn, owed, writes, drives, cycle⟩ := env
  cases hd
  exact step_congr rfl rfl rfl rfl rfl rfl rfl rfl rfl

/-- Settles O39, output by output. -/
theorem outputsFollowState : Obligations.OutputsFollowState := by
  intro s
  refine ⟨?_, ?_, ?_⟩
  · simp [State.outputs, reqReady]
  · simp [State.outputs, txReq]
  · simp [State.outputs, rxReady, inWindow]

end Sys2Proof.Machine
end

section
/-! Progress: in every cycle an operation goes on or ends, and what each leaves in the flags and the results
(10_state.md R22, R23, R27, R30 to R34). -/

namespace Sys2Proof.Machine

/-- The result registers are the same, 10_state.md R33 and R34. -/
def Block.SameResults (b b' : Block) : Prop :=
  b'.val0 = b.val0 ∧ b'.val1 = b.val1 ∧ b'.val2 = b.val2 ∧ b'.ts = b.ts

/-- From the registers `b` the operation in progress has come to `b'`: it goes on, and leaves the flags, `ERR` and the
results as they were, or it has ended by `Complete` (60_exceptions.md R252). -/
structure Block.Progress (b b' : Block) : Prop where
  op : b'.op = b.op
  arg : b'.arg = b.arg
  txReqQ : b'.txReqQ = b.txReqQ
  goesOn : b'.fsm ≠ .idle → b'.pulse = b.pulse ∧ b'.done = b.done ∧ b'.err = b.err ∧ b.SameResults b'
  ends : b'.fsm = .idle → b'.pulse = true ∧ b'.done = true ∧ (b'.err ≠ 0 → b.SameResults b')

theorem Block.progress_complete (b : Block) (v : Verdict) : b.Progress (b.complete v) where
  op := b.complete_op v
  arg := b.complete_arg v
  txReqQ := b.complete_txReqQ v
  goesOn h := absurd (b.complete_fsm v) h
  ends _ := by
    refine ⟨b.complete_pulse v, b.complete_done v, fun h => ?_⟩
    rcases b.complete_cases v with ⟨w, rfl, -⟩ | h'
    · exact absurd (b.complete_err _) h
    · rw [h']; exact ⟨rfl, rfl, rfl, rfl⟩

theorem Block.progress_endOperation (b : Block) (c : Code) : b.Progress (b.endOperation c) :=
  b.complete_none c ▸ b.progress_complete ⟨c, none⟩

theorem Block.progress_startRead (b : Block) : b.Progress b.startRead :=
  ⟨rfl, rfl, rfl, fun _ => ⟨rfl, rfl, rfl, rfl, rfl, rfl, rfl⟩, nofun⟩

theorem Block.progress_startWrite (b : Block) (y : Body) : b.Progress (b.startWrite y) :=
  ⟨rfl, rfl, rfl, fun _ => ⟨rfl, rfl, rfl, rfl, rfl, rfl, rfl⟩, nofun⟩

theorem Block.progress_self {b : Block} (h : b.fsm ≠ .idle) : b.Progress b :=
  ⟨rfl, rfl, rfl, fun _ => ⟨rfl, rfl, rfl, rfl, rfl, rfl, rfl⟩, fun h' => absurd h' h⟩

/-- `Progress` does not speak of the capture, so it may start from before the byte. -/
theorem Block.Progress.of_capture {b b' : Block} {x : Byte} (h : (b.capture x).Progress b') : b.Progress b' :=
  ⟨h.op, h.arg, h.txReqQ, h.goesOn, h.ends⟩

theorem Block.progress_countCycle {b : Block} (h : b.fsm ≠ .idle) : b.Progress b.countCycle :=
  ⟨rfl, rfl, rfl, fun _ => ⟨rfl, rfl, rfl, rfl, rfl, rfl, rfl⟩, fun h' => absurd h' h⟩

theorem Block.progress_admitRequest (b : Block) (o : Operation) : b.Progress (b.admitRequest o) := by
  rcases b.admitRequest_cases o with ⟨-, -, h⟩ | ⟨-, y, -, h⟩ | ⟨-, h⟩ <;> rw [h]
  · exact b.progress_startRead
  · exact b.progress_startWrite y
  · exact b.progress_endOperation _

theorem Block.progress_txStep {b : Block} (hf : b.fsm ≠ .idle) (a : Option WriteAnswer) : b.Progress (b.txStep a) := by
  rcases b.txStep_cases a with ⟨-, h⟩ | ⟨w, -, -, h⟩ | ⟨w, -, -, -, h⟩ | ⟨-, h⟩ <;> rw [h]
  · exact Block.progress_self hf
  · exact b.progress_endOperation _
  · exact b.progress_endOperation _
  · exact b.progress_startRead

theorem Block.progress_finish (b : Block) (o : Operation) (t : Time) : b.Progress (b.finish o t) := by
  rw [Block.finish_eq]
  split
  · exact b.progress_complete _
  · exact b.progress_endOperation _

theorem Block.progress_rxOpen {b : Block} (hf : b.fsm ≠ .idle) (o : Operation) (p : Pins) :
    b.Progress (b.rxOpen o p) := by
  rcases b.rxOpen_cases o p with ⟨-, h⟩ | ⟨-, -, h⟩ | ⟨-, x, -, -, h⟩ | ⟨-, -, h⟩ <;> rw [h]
  · exact b.progress_endOperation _
  · exact Block.progress_countCycle hf
  · exact (Block.progress_countCycle (b := b.capture x) hf).of_capture
  · exact (Block.progress_finish _ _ _).of_capture

/-- A cycle is quiet, or it is progress of the request accepted in it or of the operation in progress. -/
theorem Cycle.progress {s : State} {b : Block} (h : Cycle s b) :
    (s.blk.fsm = .idle ∧ s.pins.req = none ∧ b = s.ticked) ∨
    (∃ r, s.blk.fsm = .idle ∧ s.pins.req = some r ∧ (s.ticked.accept r).Progress b) ∨
    (s.blk.fsm ≠ .idle ∧ s.ticked.Progress b) := by
  cases h with
  | quiet hf hq => exact .inl ⟨hf, hq, rfl⟩
  | reserved r hf hq ho => exact .inr (.inl ⟨r, hf, hq, Block.progress_endOperation _ _⟩)
  | accepted i hf hq => exact .inr (.inl ⟨_, hf, hq, Block.progress_admitRequest _ _⟩)
  | writing i hf ho =>
    have busy : s.blk.fsm ≠ .idle := by simp [hf]
    exact .inr (.inr ⟨busy, Block.progress_txStep (b := s.ticked) busy _⟩)
  | reading i hf ho hw =>
    have busy : s.blk.fsm ≠ .idle := by simp [hf]
    exact .inr (.inr ⟨busy, Block.progress_rxOpen (b := s.ticked) busy _ _⟩)
  | timedOut i hf ho hw => exact .inr (.inr ⟨by simp [hf], Block.progress_endOperation _ _⟩)

theorem Cycle.txReqQ_eq {s : State} {b : Block} (h : Cycle s b) : b.txReqQ = txReq s.blk s.pins.rst := by
  rcases h.progress with ⟨-, -, rfl⟩ | ⟨r, -, -, hp⟩ | ⟨-, hp⟩
  · rfl
  · exact hp.txReqQ
  · exact hp.txReqQ

/-- Settles O35: `OP` and `ARG` stay those of the request just accepted, or of the operation in progress. -/
theorem opAndArgWrittenOnlyOnAccept : Obligations.OpAndArgWrittenOnlyOnAccept := by
  intro s t hr h
  rcases (cycle_of_step hr h).2.progress with ⟨hf, hq, ht⟩ | ⟨r, hf, hq, hp⟩ | ⟨hf, hp⟩
  · simp [-State.pins_req, hq, ht]
  · simp [-State.pins_req, hf, hq, hp.op, hp.arg]
  · simp [hf, hp.op, hp.arg]

/-- Settles O33: a quiet cycle completes nothing, and progress sets the flags exactly when the operation ends. -/
theorem pulseAndDoneFollowCompletion : Obligations.PulseAndDoneFollowCompletion := by
  intro s t hr h
  have flags {b : Block} (hp : b.Progress t.blk) (hb : b.pulse = false) :
      (t.blk.pulse = true ↔ t.blk.fsm = .idle) ∧ (t.blk.pulse = true → t.blk.done = true) ∧
        (t.blk.pulse = false → t.blk.done = b.done) := by
    by_cases hf : t.blk.fsm = .idle
    · obtain ⟨hpulse, hdone, -⟩ := hp.ends hf
      simp [hf, hpulse, hdone]
    · obtain ⟨hpulse, hdone, -⟩ := hp.goesOn hf
      simp [hf, hpulse, hb, hdone]
  rcases (cycle_of_step hr h).2.progress with ⟨hf, hq, ht⟩ | ⟨r, hf, hq, hp⟩ | ⟨hf, hp⟩
  · simp [-State.pins_req, State.outputs, hf, hq, ht]
  · obtain ⟨hpulse, hset, hkept⟩ := flags hp rfl
    refine ⟨hpulse.trans (by simp [-State.pins_req, hq]), rfl, hset, fun h0 _ _ => hkept h0, fun _ hn => ?_⟩
    simp [-State.pins_req, hf, hq] at hn
  · obtain ⟨hpulse, hset, hkept⟩ := flags hp rfl
    exact ⟨hpulse.trans (by simp [hf]), rfl, hset, fun _ hi => absurd hi hf, fun h0 _ => hkept h0⟩

/-! Results -/

/-- The time stamp is a write of the two data operations only, 43_operations.md R191. -/
theorem operationFor_interpret_ts (i : Instr) (buf : Capture) (t : Time) {c : Code} {w : Writes}
    (h : (operationFor i).interpret buf t = ⟨c, some w⟩) :
    w.ts = none ∨ (w.ts = some t ∧ ((encode i).op = 7 ∨ (encode i).op = 8)) := by
  have echo (a : Word) (h : echoVerdict a buf = ⟨c, some w⟩) : w.ts = none := by
    unfold echoVerdict at h
    split at h <;> cases h
    rfl
  cases i with
  | setWorkMode a => exact .inl (echo a h)
  | setReportingMode a => exact .inl (echo a h)
  | setWorkPeriod a => exact .inl (echo a h)
  | queryData a => cases h; exact .inr ⟨rfl, .inl rfl⟩
  | waitForData a => cases h; exact .inr ⟨rfl, .inr rfl⟩
  | _ => cases h; exact .inl rfl

theorem Block.finish_ts (b : Block) (i : Instr) (t : Time) :
    (b.finish (operationFor i) t).ts = b.ts ∨
    ((b.finish (operationFor i) t).ts = t ∧ ((encode i).op = 7 ∨ (encode i).op = 8)) := by
  rw [Block.finish_eq]
  split
  · rcases b.complete_cases ((operationFor i).interpret b.rxBuf t) with ⟨w, hv, h⟩ | h <;> rw [h]
    · exact (operationFor_interpret_ts i _ _ hv).imp (fun hw => by simp [hw]) fun ⟨hw, ho⟩ => ⟨by simp [hw], ho⟩
    · exact .inl rfl
  · exact .inl rfl

/-- The time stamp stays, or it is the time of the cycle that ends the read of a data operation, 10_state.md R34. -/
theorem Cycle.ts_cases {s : State} {b : Block} (h : Cycle s b) :
    b.ts = s.blk.ts ∨ ((s.blk.op = 7 ∨ s.blk.op = 8) ∧ s.blk.fsm = .rx ∧ b.ts = s.pins.timeIn) := by
  cases h with
  | quiet hf hq => exact .inl rfl
  | reserved r hf hq ho => exact .inl rfl
  | timedOut i hf ho hw => exact .inl rfl
  | accepted i hf hq =>
    rcases Block.admitRequest_cases (s.ticked.accept (encode i)) (operationFor i) with
      ⟨-, -, h⟩ | ⟨-, y, -, h⟩ | ⟨-, h⟩ <;>
      exact .inl (by rw [h]; rfl)
  | writing i hf ho =>
    rcases s.ticked.txStep_cases s.pins.tx with ⟨-, h⟩ | ⟨w, -, -, h⟩ | ⟨w, -, -, -, h⟩ | ⟨-, h⟩ <;>
      exact .inl (by rw [h]; rfl)
  | reading i hf ho hw =>
    rcases s.ticked.rxOpen_cases (operationFor i) s.pins with ⟨-, h⟩ | ⟨-, -, h⟩ | ⟨-, x, -, -, h⟩ | ⟨-, -, h⟩
    · exact .inl (by rw [h]; rfl)
    · exact .inl (by rw [h]; rfl)
    · exact .inl (by rw [h]; rfl)
    · have hop : (encode i).op = s.blk.op := by rw [ho]
      rw [h]
      rcases Block.finish_ts (s.ticked.capture delimiter) i s.pins.timeIn with ht | ⟨ht, h78⟩
      · exact .inl ht
      · exact .inr ⟨hop ▸ h78, hf, ht⟩

/-- Settles O34: an operation that goes on keeps `ERR` and the results, one that ends with an error keeps the results; the
time stamp by `Cycle.ts_cases`. -/
theorem resultsChangeOnlyAtCompletion : Obligations.ResultsChangeOnlyAtCompletion := by
  intro s t hr h
  obtain ⟨-, hc⟩ := cycle_of_step hr h
  have kept {b : Block} (hp : b.Progress t.blk) :
      (t.blk.pulse = false → t.blk.err = b.err) ∧ (t.blk.pulse = false ∨ t.blk.err ≠ 0 → b.SameResults t.blk) := by
    by_cases hf : t.blk.fsm = .idle
    · obtain ⟨hpulse, -, hsame⟩ := hp.ends hf
      simpa [hpulse] using hsame
    · obtain ⟨-, -, herr, hsame⟩ := hp.goesOn hf
      exact ⟨fun _ => herr, fun _ => hsame⟩
  rw [← and_assoc]
  refine ⟨?_, fun hne => hc.ts_cases.resolve_left hne⟩
  rcases hc.progress with ⟨hf, hq, ht⟩ | ⟨r, hf, hq, hp⟩ | ⟨hf, hp⟩
  · rw [ht]; exact ⟨fun _ => rfl, fun _ => ⟨rfl, rfl, rfl, rfl⟩⟩
  · obtain ⟨herr, hsame⟩ := kept hp
    exact ⟨herr, hsame⟩
  · obtain ⟨herr, hsame⟩ := kept hp
    exact ⟨herr, hsame⟩

/-! The write request -/

theorem step_txReqQ {s t : State} (h : step s = .next t) : t.blk.txReqQ = txReq s.blk s.pins.rst := by
  rcases step_cases s with ⟨hr, h'⟩ | ⟨-, -, b, hc, h'⟩ | ⟨-, f, -, h'⟩ <;> rw [h'] at h <;> cases h
  · rw [txReq, hr, Bool.not_true, Bool.and_false]; rfl
  · exact hc.txReqQ_eq

theorem step_writes {s t : State} (h : step s = .next t) :
    t.env.writes = if s.writeBegins then s.env.writes ++ [s.blk.txFrame] else s.env.writes := by
  rw [(step_env h).1, State.nextEnv_writes]

/-- Settles O27: `TXREQ_Q` is `tx_req` of the cycle before, so `tx_req` without it marks the first `TXW` cycle. -/
theorem oneWritePerTransaction : Obligations.OneWritePerTransaction := by
  intro s t h
  rw [step_writes h, step_txReqQ h]
  refine ⟨fun hf hr hq => ?_, fun hf hq => ?_, fun hf => ?_⟩
  · have hr' : s.drive.rst = false := hr
    simp [State.writeBegins, txReq, hf, hr', hq]
  · refine ⟨by simp [State.writeBegins, hq], fun ht => ?_⟩
    cases hr : s.pins.rst with
    | false => simp [txReq, hf]
    | true => rw [step_reset hr] at h; cases h; cases ht
  · simp [writeBegins_of_ne_txw hf, txReq, hf]

end Sys2Proof.Machine
end

section
/-! The invariant: what establishes it in each sequencer state, and that every cycle keeps it. -/

namespace Sys2Proof

/-- The clock at reset is held to the frequencies R5 allows. -/
theorem Config.atReset_wf : Config.atReset.wf = true := by
  rw [Config.wf_iff]
  simp only [Config.atReset, Config.ofClock]
  omega

end Sys2Proof

namespace Sys2Proof.Machine

open Sys2Proof.Safety

/-! Operations and the spec's tables -/

/-- The admission of an operation is `Admit` of its request, 43_operations.md R190. -/
theorem operationFor_admission (i : Instr) : (operationFor i).admission = specAdmit (encode i).op (encode i).arg := by
  have swap (p : Prop) [Decidable p] :
      (if p then Code.ok else Code.rangeError) = if ¬p then Code.rangeError else Code.ok := (ite_not p _ _).symm
  cases i with
  | setWorkMode a => exact (swap _).trans (by simp [specAdmit, encode])
  | setReportingMode a => exact (swap _).trans (by simp [specAdmit, encode])
  | setWorkPeriod a => exact (swap _).trans (by simp [specAdmit, encode])
  | _ => simp [specAdmit, encode, operationFor, getFirmwareOp, getWorkModeOp, getReportingModeOp, getWorkPeriodOp,
      queryDataOp, waitForDataOp, admitAny]

/-- The body of an operation is the template of its request, 30_encoding.md R89. -/
theorem operationFor_body (i : Instr) : (operationFor i).body = specTemplate (encode i).op (encode i).arg := by
  cases i <;> rfl

theorem specAdmit_cases (op : BitVec 4) (a : Word) :
    specAdmit op a = .malformedInput ∨ specAdmit op a = .rangeError ∨ specAdmit op a = .ok := by
  unfold specAdmit
  split_ifs <;> simp

/-! The capture buffer -/

theorem captureClean_accept (b : Block) (r : Request) : CaptureClean (b.accept r) := by
  intro j hj
  simp

theorem Block.capture_rxLen_toNat (b : Block) (x : Byte) :
    (b.capture x).rxLen.toNat = min (b.rxLen.toNat + 1) 255 := by
  rw [Block.capture_rxLen, BitVec.toNat_ofNat, Nat.mod_eq_of_lt (by omega)]

theorem Block.capture_rxBuf_getElem (b : Block) (x : Byte) {j : Nat} (hj : j < 10) :
    (b.capture x).rxBuf[j] = if b.rxLen.toNat = j then x else b.rxBuf[j] := by
  simp only [Block.capture_rxBuf, Vector.getElem_setIfInBounds]

/-- A byte other than the delimiter keeps the buffer clean, 42_transaction.md R162. -/
theorem captureClean_capture {b : Block} (h : CaptureClean b) {x : Byte} (hx : x ≠ delimiter) :
    CaptureClean (b.capture x) := by
  intro j hj
  obtain ⟨captured, zero⟩ := h j hj
  rw [Block.capture_rxLen_toNat, Block.capture_rxBuf_getElem b x hj]
  split_ifs with hlen
  · exact ⟨fun _ => hx, fun hge => by omega⟩
  · exact ⟨fun hlt => captured (by omega), fun hge => zero (by omega)⟩

/-- The delimiter as the tenth byte of a clean buffer makes a whole frame, 41_frame_codec.md R136. -/
theorem frameCaptured_capture {b : Block} (h : CaptureClean b) (hl : (b.capture delimiter).rxLen = 10) :
    FrameCaptured (b.capture delimiter) := by
  have hnine : b.rxLen.toNat = 9 := by
    have := b.capture_rxLen_toNat delimiter
    rw [hl] at this
    simp at this
    omega
  refine ⟨hl, ?_, fun j hj => ?_⟩
  · rw [Block.capture_rxBuf_getElem, if_pos hnine]
  · rw [Block.capture_rxBuf_getElem, if_neg (by omega)]
    exact (h j (by omega)).1 (by omega)

end Sys2Proof.Machine

namespace Sys2Proof.Safety

open Sys2Proof.Machine

/-! The invariant, sequencer state by sequencer state -/

theorem Invariant.of_idle {t : State} (hw : t.cfg.wf = true) (hf : t.blk.fsm = .idle) (he : t.blk.err.toNat ≤ 8)
    (ht : t.blk.timer.toNat ≤ t.cfg.timeoutCycles) (hp : t.blk.pulse = true → t.blk.done = true)
    (hc : t.blk.done = true → t.blk.err = 0 ∨ t.blk.err = 4 ∨ t.blk.err = 5 → FrameCaptured t.blk) : Invariant t where
  cfg := hw
  fsm h := nomatch hf.symm.trans h
  err := he
  timer := ht
  admitted h := absurd hf h
  frame h := nomatch hf.symm.trans h
  written h := nomatch hf.symm.trans h
  clean h := absurd hf h
  paced h := nomatch hf.symm.trans h
  done h := absurd hf h
  pulse h := ⟨hf, hp h⟩
  captured _ := hc
  owed h := nomatch hf.symm.trans h

theorem Invariant.of_writing {t : State} (hw : t.cfg.wf = true) (hf : t.blk.fsm = .txw) (he : t.blk.err.toNat ≤ 8)
    (ht : t.blk.timer.toNat ≤ t.cfg.timeoutCycles) (ha : specAdmit t.blk.op t.blk.arg = .ok)
    (hb : ∃ body, specTemplate t.blk.op t.blk.arg = some body ∧ t.blk.txFrame = encodeFrame body)
    (hl : t.blk.rxLen = 0) (hc : CaptureClean t.blk) (hd : t.blk.done = false) (hp : t.blk.pulse = false)
    (ho : t.blk.txReqQ = true → 0 < t.env.owed) : Invariant t where
  cfg := hw
  fsm h := nomatch hf.symm.trans h
  err := he
  timer := ht
  admitted _ := ha
  frame _ := hb
  written _ := hl
  clean _ := hc
  paced h := nomatch hf.symm.trans h
  done _ := hd
  pulse h := nomatch hp.symm.trans h
  captured h := nomatch hf.symm.trans h
  owed _ := ho

theorem Invariant.of_reading {t : State} (hw : t.cfg.wf = true) (hf : t.blk.fsm = .rx) (he : t.blk.err.toNat ≤ 8)
    (ht : t.blk.timer.toNat ≤ t.cfg.timeoutCycles) (ha : specAdmit t.blk.op t.blk.arg = .ok)
    (hc : CaptureClean t.blk) (hl : t.blk.rxLen.toNat ≤ t.blk.timer.toNat) (hd : t.blk.done = false)
    (hp : t.blk.pulse = false) : Invariant t where
  cfg := hw
  fsm h := nomatch hf.symm.trans h
  err := he
  timer := ht
  admitted _ := ha
  frame h := nomatch hf.symm.trans h
  written h := nomatch hf.symm.trans h
  clean _ := hc
  paced _ := hl
  done _ := hd
  pulse h := nomatch hp.symm.trans h
  captured h := nomatch hf.symm.trans h
  owed h := nomatch hf.symm.trans h

/-- The end of an operation that has captured a whole frame, or ends with a code that does not ask for one. -/
theorem Invariant.of_complete {s : State} (b : Block) (hw : s.cfg.wf = true) (ht : b.timer.toNat ≤ s.cfg.timeoutCycles)
    (v : Verdict) (hc : v.code.bits = 0 ∨ v.code.bits = 4 ∨ v.code.bits = 5 → FrameCaptured b) :
    Invariant (s.advance (b.complete v)) := by
  refine .of_idle hw (b.complete_fsm v) ?_ ?_ (fun _ => b.complete_done v) (fun _ herr => ?_)
  · rw [State.advance_blk, Block.complete_err]; exact v.code.bits_le
  · rw [State.advance_blk, Block.complete_timer]; exact ht
  · rw [State.advance_blk, Block.complete_err] at herr
    simpa only [FrameCaptured, State.advance_blk, Block.complete_rxBuf, Block.complete_rxLen] using hc herr

/-- An error that does not ask for a captured frame. -/
theorem Invariant.of_endOperation {s : State} (b : Block) (hw : s.cfg.wf = true)
    (ht : b.timer.toNat ≤ s.cfg.timeoutCycles) (c : Code) (hc : ¬(c.bits = 0 ∨ c.bits = 4 ∨ c.bits = 5)) :
    Invariant (s.advance (b.endOperation c)) :=
  b.complete_none c ▸ .of_complete b hw ht ⟨c, none⟩ fun h => absurd h hc

/-- Only a capture of ten bytes gets past the length check, so the verdicts that ask for a whole frame have one. -/
theorem Invariant.of_finish {s : State} (b : Block) (hw : s.cfg.wf = true) (ht : b.timer.toNat ≤ s.cfg.timeoutCycles)
    (hc : CaptureClean b) (o : Operation) (t : Time) : Invariant (s.advance ((b.capture delimiter).finish o t)) := by
  rw [Block.finish_eq]
  rcases validate_cases (b.capture delimiter).rxBuf (b.capture delimiter).rxLen with hv | ⟨hl, -⟩
  · rw [hv, if_neg (by decide)]
    exact .of_endOperation (b.capture delimiter) hw ht .lengthError (by decide)
  · have whole : FrameCaptured (b.capture delimiter) := frameCaptured_capture hc hl
    split
    · exact .of_complete (b.capture delimiter) hw ht _ fun _ => whole
    · rw [← Block.complete_none]
      exact .of_complete (b.capture delimiter) hw ht _ fun _ => whole

theorem Invariant.of_startRead {s : State} (b : Block) (hw : s.cfg.wf = true) (he : b.err.toNat ≤ 8)
    (ha : specAdmit b.op b.arg = .ok) (hl : b.rxLen = 0) (hc : CaptureClean b) (hd : b.done = false)
    (hp : b.pulse = false) : Invariant (s.advance b.startRead) :=
  .of_reading hw rfl he (Nat.zero_le _) ha hc (by simp [hl]) hd hp

/-! Every cycle keeps the invariant -/

/-- After a cycle in `TXW` without an answer the write is owed one: it was before, or it has just begun, R156. -/
theorem owed_of_unanswered {s : State} (hf : s.blk.fsm = .txw) (hr : s.pins.rst = false)
    (ho : s.blk.txReqQ = true → 0 < s.env.owed) (ha : s.pins.tx = none) : 0 < s.nextEnv.owed := by
  have hr' : s.drive.rst = false := hr
  cases hq : s.blk.txReqQ with
  | true => simpa [ha, State.answerable, State.writeBegins, hq] using ho hq
  | false => simp [ha, State.answerable, State.writeBegins, txReq, hf, hr', hq]

/-- `TIMER` does not wrap while the window is open, 60_exceptions.md R260. -/
theorem countCycle_timer_toNat {s : State} (hw : s.cfg.wf = true) (h : s.blk.timer.toNat < s.cfg.timeoutCycles) :
    (s.blk.timer + 1).toNat = s.blk.timer.toNat + 1 := by
  obtain ⟨-, -, hlt⟩ := (Config.wf_iff _).mp hw
  rw [BitVec.toNat_add]
  exact Nat.mod_eq_of_lt (by simp; omega)

section Cycles

variable {s : State}

theorem Invariant.reset (hi : Invariant s) : Invariant s.resetCycle :=
  .of_idle hi.cfg rfl (Nat.zero_le _) (Nat.zero_le _) nofun nofun

theorem Invariant.quiet (hi : Invariant s) (hf : s.blk.fsm = .idle) : Invariant (s.advance s.ticked) :=
  .of_idle hi.cfg hf hi.err hi.timer nofun (hi.captured hf)

theorem Invariant.admitRequest (hi : Invariant s) (hf : s.blk.fsm = .idle) (i : Instr) :
    Invariant (s.advance ((s.ticked.accept (encode i)).admitRequest (operationFor i))) := by
  rcases (s.ticked.accept (encode i)).admitRequest_cases (operationFor i) with ⟨ha, -, h⟩ | ⟨ha, y, hy, h⟩ | ⟨ha, h⟩ <;>
    rw [h] <;> rw [operationFor_admission] at ha
  · exact .of_startRead _ hi.cfg hi.err ha rfl (captureClean_accept _ _) rfl rfl
  · rw [operationFor_body] at hy
    have hq : s.ticked.txReqQ = false := by simp [txReq, hf]
    exact .of_writing hi.cfg rfl hi.err (Nat.zero_le _) ha ⟨y, hy, rfl⟩ rfl
      (captureClean_accept s.ticked (encode i)) rfl rfl fun h => nomatch hq.symm.trans h
  · refine .of_endOperation _ hi.cfg (Nat.zero_le _) _ ?_
    rw [operationFor_admission]
    rcases specAdmit_cases (encode i).op (encode i).arg with hc | hc | hc
    · rw [hc]; decide
    · rw [hc]; decide
    · exact absurd hc ha

theorem Invariant.txStep (hi : Invariant s) (hr : s.pins.rst = false) (hf : s.blk.fsm = .txw) :
    Invariant (s.advance (s.ticked.txStep s.pins.tx)) := by
  have busy : s.blk.fsm ≠ .idle := by simp [hf]
  rcases s.ticked.txStep_cases s.pins.tx with ⟨ha, h⟩ | ⟨w, -, -, h⟩ | ⟨w, -, -, -, h⟩ | ⟨-, h⟩ <;> rw [h]
  · exact .of_writing hi.cfg hf hi.err hi.timer (hi.admitted busy) (hi.frame hf) (hi.written hf) (hi.clean busy)
      (hi.done busy) rfl fun _ => owed_of_unanswered hf hr (hi.owed hf) ha
  · exact .of_endOperation s.ticked hi.cfg hi.timer .ioError (by decide)
  · exact .of_endOperation s.ticked hi.cfg hi.timer .writeError (by decide)
  · exact .of_startRead _ hi.cfg hi.err (hi.admitted busy) (hi.written hf) (hi.clean busy) (hi.done busy) rfl

theorem Invariant.rxOpen (hi : Invariant s) (hf : s.blk.fsm = .rx) (hw : s.blk.timer.toNat < s.cfg.timeoutCycles)
    (o : Operation) : Invariant (s.advance (s.ticked.rxOpen o s.pins)) := by
  have busy : s.blk.fsm ≠ .idle := by simp [hf]
  have hclean : CaptureClean s.ticked := hi.clean busy
  have count := countCycle_timer_toNat hi.cfg hw
  have paced := hi.paced hf
  rcases s.ticked.rxOpen_cases o s.pins with ⟨-, h⟩ | ⟨-, -, h⟩ | ⟨-, x, -, hx, h⟩ | ⟨-, -, h⟩ <;> rw [h]
  · exact .of_endOperation s.ticked hi.cfg hi.timer .ioError (by decide)
  · exact .of_reading hi.cfg hf hi.err (count ▸ hw) (hi.admitted busy) hclean
      (show _ ≤ (s.blk.timer + 1).toNat by rw [count]; exact Nat.le_succ_of_le paced) (hi.done busy) rfl
  · have hlen : (s.ticked.capture x).rxLen.toNat ≤ (s.blk.timer + 1).toNat := by
      rw [Block.capture_rxLen_toNat, count, State.ticked_rxLen]
      omega
    exact .of_reading hi.cfg hf hi.err (count ▸ hw) (hi.admitted busy) (captureClean_capture hclean hx) hlen
      (hi.done busy) rfl
  · exact .of_finish s.ticked hi.cfg hi.timer hclean o _

end Cycles

/-- Settles O52: a reset cycle and each arm of a cycle keep the invariant. -/
theorem stepKeepsInvariant : Obligations.StepKeepsInvariant := by
  intro s t hi h
  rcases step_cases s with ⟨-, h'⟩ | ⟨hr, -, b, hc, h'⟩ | ⟨-, f, -, h'⟩ <;> rw [h'] at h <;> cases h
  · exact hi.reset
  · cases hc with
    | quiet hf hq => exact hi.quiet hf
    | reserved r hf hq ho => exact .of_endOperation _ hi.cfg (Nat.zero_le _) .malformedInput (by decide)
    | accepted i hf hq => exact hi.admitRequest hf i
    | writing i hf ho => exact hi.txStep hr hf
    | reading i hf ho hw => exact hi.rxOpen hf hw _
    | timedOut i hf ho hw => exact .of_endOperation s.ticked hi.cfg hi.timer .timeoutError (by decide)

/-- Settles O51: the clock at reset is one R5 allows, and the reset registers are those of an idle block. -/
theorem resetStateMeetsInvariant : Obligations.ResetStateMeetsInvariant :=
  Invariant.of_idle Config.atReset_wf rfl (by decide) (Nat.zero_le _) nofun nofun

end Sys2Proof.Safety
end

section
/-! The channel and the results: when a read begins, which byte a cycle takes, and what the idle block keeps
(20_memory.md R66, R67, R69). -/

namespace Sys2Proof.Machine

open Sys2Proof.Safety

/-! A read begins, R66 -/

/-- Only `WAIT_FOR_DATA` sends no frame, 43_operations.md R200. -/
theorem encode_of_body_none {i : Instr} (h : (operationFor i).body = none) : ∃ a, encode i = ⟨8, a⟩ := by
  cases i with
  | waitForData a => exact ⟨a, rfl⟩
  | _ => cases h

theorem Block.body_none_of_admitRequest_rx {b : Block} {o : Operation} (h : (b.admitRequest o).fsm = .rx) :
    o.body = none := by
  rcases b.admitRequest_cases o with ⟨-, hb, -⟩ | ⟨-, y, -, h'⟩ | ⟨-, h'⟩
  · exact hb
  · rw [h'] at h; cases h
  · rw [h'] at h; cases h

theorem Block.answer_of_txStep_rx {b : Block} {a : Option WriteAnswer} (hf : b.fsm ≠ .rx)
    (h : (b.txStep a).fsm = .rx) : a = some ⟨false, 19⟩ := by
  rcases b.txStep_cases a with ⟨-, h'⟩ | ⟨w, -, -, h'⟩ | ⟨w, -, -, -, h'⟩ | ⟨ha, -⟩
  · rw [h'] at h; exact absurd h hf
  · rw [h'] at h; cases h
  · rw [h'] at h; cases h
  · exact ha

/-- A cycle that begins a read is one whose write is answered with 19 bytes, or the accept of `WAIT_FOR_DATA`. -/
theorem Cycle.read_begins {s : State} {b : Block} (h : Cycle s b) (hs : s.blk.fsm ≠ .rx) (hb : b.fsm = .rx) :
    (s.blk.fsm = .txw ∧ s.pins.tx = some ⟨false, 19⟩) ∨
    (s.blk.fsm = .idle ∧ ∃ a, s.pins.req = some ⟨8, a⟩) := by
  cases h with
  | quiet hf hq => exact absurd hb hs
  | reserved r hf hq ho => cases hb
  | accepted i hf hq =>
    obtain ⟨a, ha⟩ := encode_of_body_none (Block.body_none_of_admitRequest_rx hb)
    exact .inr ⟨hf, a, ha ▸ hq⟩
  | writing i hf ho => exact .inl ⟨hf, Block.answer_of_txStep_rx (b := s.ticked) hs hb⟩
  | reading i hf ho hw => exact absurd hf hs
  | timedOut i hf ho hw => exact absurd hf hs

theorem rxReady_txw {s : State} (h : s.blk.fsm = .txw) (rst : Bool) : rxReady s.cfg s.blk rst = false := by
  simp [rxReady, h]

theorem byteTaken_txw {s : State} (h : s.blk.fsm = .txw) : s.byteTaken = false := by
  simp [State.byteTaken, rxReady_txw h]

/-- An operation in progress that changes `ERR` has ended, 60_exceptions.md R252. -/
theorem Cycle.fsm_idle_of_err_ne {s : State} {b : Block} (h : Cycle s b) (hs : s.blk.fsm ≠ .idle)
    (he : b.err ≠ s.blk.err) : b.fsm = .idle := by
  rcases h.progress with ⟨hf, -, -⟩ | ⟨r, hf, -, -⟩ | ⟨-, hp⟩
  · exact absurd hf hs
  · exact absurd hf hs
  · by_contra hb
    obtain ⟨-, -, herr, -⟩ := hp.goesOn hb
    exact he herr

/-- Settles O26: a reset leaves the block idle; any other step is a cycle, which begins a read as `Cycle.read_begins` says
and ends the operation when it changes `ERR`. -/
theorem writeBeforeRead : Obligations.WriteBeforeRead := by
  intro s t h
  have noByte (hf : s.blk.fsm = .txw) : s.byteTaken = false ∧ s.outputs.rxReady = false :=
    ⟨byteTaken_txw hf, rxReady_txw hf _⟩
  cases hr : s.pins.rst with
  | true => rw [step_reset hr] at h; cases h; exact ⟨nofun, noByte, fun _ _ => rfl⟩
  | false =>
    obtain ⟨-, hc⟩ := cycle_of_step hr h
    exact ⟨hc.read_begins, noByte, fun hf => hc.fsm_idle_of_err_ne (by simp [hf])⟩

/-! Inbound bytes, R67 -/

/-- A byte that is taken is the one offered, and the oldest of the channel's queue. -/
theorem inbound_of_byteTaken {s : State} (h : s.byteTaken = true) :
    ∃ x, s.pins.rx = some x ∧ s.inbound = x :: s.inbound.tail := by
  simp only [State.byteTaken, Bool.and_eq_true] at h
  obtain ⟨⟨offered, -⟩, -⟩ := h
  obtain ⟨x, hx⟩ := Option.isSome_iff_exists.mp offered
  exact ⟨x, hx, inbound_of_rx hx⟩

/-- Settles O41: the queue loses its head in a cycle that takes a byte, and nothing in any other. -/
theorem bytesConsumedInOrder : Obligations.BytesConsumedInOrder := by
  intro s t h
  rw [(step_env h).1, State.nextEnv_chanIn]
  cases ht : s.byteTaken with
  | false => exact .inl ⟨rfl, rfl⟩
  | true =>
    obtain ⟨x, hx, hq⟩ := inbound_of_byteTaken ht
    exact .inr ⟨x, rfl, hx, hq⟩

/-! Idle cycles without a request, R69 -/

/-- Settles O59, by induction on the number of cycles: each of them is quiet and writes only `TXREQ_Q` and `PULSE`. -/
theorem resultsStableUntilNextAccept : Obligations.ResultsStableUntilNextAccept := by
  intro n
  induction n with
  | zero => exact fun s hf _ _ => ⟨s, runFor_zero s, hf, rfl, rfl, rfl, rfl, rfl, rfl, rfl, rfl⟩
  | succ n ih =>
    intro s hf he hd
    obtain ⟨⟨hr, hq⟩, rest⟩ := nextDrives_head hd
    have hstep : step s = .next (s.advance s.ticked) := (Cycle.quiet hf hq).step_eq hr he
    obtain ⟨t, hrun, kept⟩ := ih (s.advance s.ticked) hf he (rest s.ticked)
    exact ⟨t, (runFor_next hstep).trans hrun, kept⟩

end Sys2Proof.Machine
end

section
/-! The encoding of requests, 30_encoding.md R90 to R92: requests and their words, and the decoder against the encoder. -/

namespace Sys2Proof

/-! A request and its word, notes/assumptions/7.md -/

@[simp] theorem Request.ofWord_toWord (r : Request) : Request.ofWord r.toWord = r := by
  have harg : r.toWord.extractLsb' 4 32 = r.arg := BitVec.extractLsb'_append_eq_left
  rw [Request.ofWord, harg, Laws.Encoding.op_bits]

@[simp] theorem Request.toWord_ofWord (w : BitVec 36) : (Request.ofWord w).toWord = w :=
  (BitVec.extractLsb'_append_extractLsb'_eq_extractLsb' rfl).trans BitVec.extractLsb'_eq_self

theorem Request.ofWord_eq_iff {w : BitVec 36} {r : Request} : Request.ofWord w = r ↔ w = r.toWord :=
  ⟨fun h => by rw [← h, toWord_ofWord], fun h => by rw [h, ofWord_toWord]⟩

/-! The decoder and the encoder, R90 and R91 -/

theorem decode_eq_ok_iff {r : Request} {i : Instr} : decode r = .ok i ↔ r = encode i :=
  ⟨fun h => (Machine.encode_of_decode h).symm, fun h => h ▸ Machine.decode_encode_request i⟩

theorem encode_injective {i j : Instr} (h : encode i = encode j) : i = j := by
  simpa using decode_eq_ok_iff.mpr h

/-- Settles O1: words and requests correspond (`Request.ofWord_eq_iff`), and so do requests and operations
(`decode_eq_ok_iff`). -/
theorem decodeAndEncodeAgree : Obligations.DecodeAndEncodeAgree :=
  fun _ _ => decode_eq_ok_iff.trans Request.ofWord_eq_iff

/-- Settles O2, word by word. -/
theorem specWordsDecode : Obligations.SpecWordsDecode := by
  unfold Obligations.SpecWordsDecode
  decide

end Sys2Proof
end

section
/-! The text form of the operations, 30_encoding.md R96: what each reader makes of what the printer writes. -/

namespace Sys2Proof.Machine

/-! Words of a line -/

/-- A word ends where the line ends or a blank follows. -/
theorem wordsOf_append : ∀ {w rest : List Char}, w ≠ [] → ' ' ∉ w → (∀ c ∈ rest.head?, c = ' ') →
    wordsOf (w ++ rest) = w :: wordsOf rest
  | [c], [], _, hb, _ => by
    have hc : c ≠ ' ' := fun h => hb (by simp [h])
    simp [wordsOf, hc]
  | [c], b :: rest, _, hb, hr => by
    have hc : c ≠ ' ' := fun h => hb (by simp [h])
    obtain rfl : b = ' ' := hr b rfl
    simp [wordsOf, hc]
  | c :: d :: w, rest, _, hb, hr => by
    obtain ⟨hc, hw⟩ := not_or.mp (mt List.mem_cons.mpr hb)
    have hd : d ≠ ' ' := fun h => hw (by simp [h])
    have ih : wordsOf (d :: (w ++ rest)) = (d :: w) :: wordsOf rest := wordsOf_append (List.cons_ne_nil d w) hw hr
    rw [List.cons_append, List.cons_append, wordsOf]
    simp [Ne.symm hc, hd, ih]

theorem wordsOf_word {w : List Char} (hw : w ≠ []) (hb : ' ' ∉ w) : wordsOf w = [w] := by
  simpa [wordsOf] using wordsOf_append (rest := []) hw hb

theorem wordsOf_two {w v : List Char} (hw : w ≠ []) (hb : ' ' ∉ w) (hv : v ≠ []) (hbv : ' ' ∉ v) :
    wordsOf (w ++ ' ' :: v) = [w, v] := by
  have blank : wordsOf (' ' :: v) = wordsOf v := by simp [wordsOf]
  rw [wordsOf_append hw hb (by simp), blank, wordsOf_word hv hbv]

/-! Hex numbers -/

theorem digitValue_hexDigit : ∀ d < 16, digitValue 16 (hexDigit d) = some d := by decide

theorem hexDigit_ne_blank : ∀ d < 16, hexDigit d ≠ ' ' := by decide

theorem blank_notMem_hexDigits (k n : Nat) : ' ' ∉ hexDigits k n := by
  induction k generalizing n with
  | zero => simp [hexDigits]
  | succ k ih =>
    have last := hexDigit_ne_blank (n % 16) (Nat.mod_lt _ (by decide))
    simp [hexDigits, ih, last.symm]

theorem readDigits_append {base acc v : Nat} {xs : List Char} (ys : List Char) (h : readDigits base acc xs = some v) :
    readDigits base acc (xs ++ ys) = readDigits base v ys := by
  induction xs generalizing acc with
  | nil => cases h; rfl
  | cons x xs ih =>
    simp only [readDigits, List.cons_append] at h ⊢
    split at h
    · exact ih h
    · cases h

/-- The `k` printed digits are those of the number modulo `16 ^ k`. -/
theorem readDigits_hexDigits (k acc n : Nat) :
    readDigits 16 acc (hexDigits k n) = some (acc * 16 ^ k + n % 16 ^ k) := by
  induction k generalizing n with
  | zero => simp [hexDigits, readDigits, Nat.mod_one]
  | succ k ih =>
    have digit := digitValue_hexDigit (n % 16) (Nat.mod_lt _ (by decide))
    rw [hexDigits, readDigits_append _ (ih _), Nat.pow_succ', Nat.mod_mul]
    simp only [readDigits, digit]
    congr 1
    ring

theorem readNumber_hexDigits (k n : Nat) : readNumber 16 (hexDigits (k + 1) n) = some (n % 16 ^ (k + 1)) := by
  have nonempty : hexDigits (k + 1) n ≠ [] := by simp [hexDigits]
  have digits : readDigits 16 0 (hexDigits (k + 1) n) = some (n % 16 ^ (k + 1)) := by
    rw [readDigits_hexDigits, Nat.zero_mul, Nat.zero_add]
  cases hd : hexDigits (k + 1) n with
  | nil => exact absurd hd nonempty
  | cons c cs => rw [← digits, hd]; rfl

/-- The argument as `printLine` writes it. -/
def printedArg (a : Word) : List Char := '0' :: 'x' :: hexDigits 8 a.toNat

theorem readArg_printedArg (a : Word) : readArg (printedArg a) = some a := by
  have small : a.toNat % 16 ^ 8 = a.toNat := Nat.mod_eq_of_lt a.isLt
  have range : a.toNat < 4294967296 := a.isLt
  simp only [printedArg, readArg, readNumber_hexDigits, small, range, if_true, BitVec.ofNat_toNat, BitVec.setWidth_eq]

/-- No symbolic argument begins as a hex number does. -/
theorem readSymbol_printedArg (i : Instr) (a : Word) : readSymbol i (printedArg a) = none := by
  cases i <;> simp [readSymbol, printedArg]

theorem blank_notMem_printedArg (a : Word) : ' ' ∉ printedArg a := by
  simp [printedArg, blank_notMem_hexDigits]

/-! Mnemonics -/

theorem find_mnemonicOf (i : Instr) :
    mnemonics.find? (fun e => decide (e.name = mnemonicOf i)) = some ⟨mnemonicOf i, (encode i).op⟩ := by
  cases i <;> rfl

/-- Every mnemonic is one word. -/
theorem mnemonics_are_words : ∀ e ∈ mnemonics, e.name ≠ [] ∧ ' ' ∉ e.name := by decide

theorem mnemonicOf_is_word (i : Instr) : mnemonicOf i ≠ [] ∧ ' ' ∉ mnemonicOf i :=
  mnemonics_are_words _ (List.mem_of_find?_eq_some (find_mnemonicOf i))

theorem parseLine_of_words {line : List Char} {i : Instr} {args : List (List Char)}
    (h : wordsOf line = mnemonicOf i :: args) : parseLine line = readOperation (encode i).op args := by
  simp only [parseLine, h, find_mnemonicOf]

/-! Operations -/

theorem operationOf_encode (i : Instr) : operationOf (encode i).op i.arg = some i := by cases i <;> rfl

/-- The code alone says whether an argument is to follow. -/
theorem operationOf_zero (i : Instr) : ∃ j, operationOf (encode i).op 0 = some j ∧ j.usesArg = i.usesArg := by
  cases i <;> exact ⟨_, rfl, rfl⟩

theorem readOperation_printedArg {i : Instr} (h : i.usesArg = true) :
    readOperation (encode i).op [printedArg i.arg] = some i := by
  obtain ⟨j, hj, hu⟩ := operationOf_zero i
  simp only [readOperation, hj, hu, h, if_true, readSymbol_printedArg, readArg_printedArg, operationOf_encode]

theorem readOperation_nil {i : Instr} (h : i.usesArg = false) (ha : i.arg = 0) :
    readOperation (encode i).op [] = some i := by
  have hi : operationOf (encode i).op 0 = some i := ha ▸ operationOf_encode i
  simp only [readOperation, hi, h, Bool.false_eq_true, if_false]

/-- Settles O3: a line is its mnemonic, with the printed argument after it exactly for a set operation. -/
theorem textLinesReadBack : Obligations.TextLinesReadBack := by
  intro i ht
  obtain ⟨hm, hb⟩ := mnemonicOf_is_word i
  cases hu : i.usesArg with
  | true =>
    have line : printLine i = mnemonicOf i ++ ' ' :: printedArg i.arg := by simp [printLine, hu, printedArg]
    have words : wordsOf (mnemonicOf i ++ ' ' :: printedArg i.arg) = [mnemonicOf i, printedArg i.arg] :=
      wordsOf_two hm hb (List.cons_ne_nil _ _) (blank_notMem_printedArg _)
    rw [line, parseLine_of_words words, readOperation_printedArg hu]
  | false =>
    have line : printLine i = mnemonicOf i := by simp [printLine, hu]
    have ha : i.arg = 0 := by simpa [Instr.textual, hu] using ht
    rw [line, parseLine_of_words (wordsOf_word hm hb), readOperation_nil hu ha]

end Sys2Proof.Machine
end

section
/-! The accept cycle, 30_encoding.md R91 and R92: a reserved code, and an argument that the operation ignores. -/

namespace Sys2Proof.Machine

open Sys2Proof.Safety

/-! Reserved codes, R92 -/

/-- Settles O9: the reserved arm of `Cycle`, whose registers are those of a failed accept. -/
theorem reservedCodeCompletesMalformed : Obligations.ReservedCodeCompletesMalformed := by
  intro s r ⟨hr, hf⟩ he hq ho
  have hne : s.blk.fsm ≠ .txw := by simp [hf]
  have registers : (s.ticked.accept r).endOperation .malformedInput = failed (accepted s.blk r.op r.arg) 7 := by
    rw [ticked_of_ne_txw hne]; rfl
  exact ⟨registers ▸ (Cycle.reserved r hf hq ho).step_eq hr he, writeBegins_of_ne_txw hne, byteTaken_idle_hold hf⟩

/-! Ignored arguments, R91 -/

/-- The operation with another argument to latch; its verdict on the argument and its body stay. -/
def Operation.withArg (o : Operation) (a : Word) : Operation := { o with arg := a }

/-- The registers with another latched argument. -/
def Block.withArg (b : Block) (a : Word) : Block := { b with arg := a }

/-- Admission carries `ARG` along: it goes by the operation's verdict and body alone. -/
theorem Block.admitRequest_withArg (b : Block) (o : Operation) (a : Word) :
    (b.withArg a).admitRequest (o.withArg a) = (b.admitRequest o).withArg a := by
  obtain ⟨code, arg, admission, body, interpret⟩ := o
  cases admission <;> cases body <;> rfl

theorem operate_withArg_of_idle {o : Operation} {s : State} (hr : s.pins.rst = false) (hf : s.blk.fsm = .idle)
    (a : Word) : operate (o.withArg a) s =
      .next (s.advance (((s.ticked.accept ⟨o.code, o.arg⟩).admitRequest o).withArg a)) := by
  rw [operate_of_idle hr hf, ← Block.admitRequest_withArg]
  rfl

/-- After its accept cycle no operation looks at the argument to latch. -/
theorem operate_withArg_of_busy {o : Operation} {s : State} (hr : s.pins.rst = false) (hf : s.blk.fsm ≠ .idle)
    (a : Word) : operate (o.withArg a) s = operate o s := by
  cases h : s.blk.fsm with
  | idle => exact absurd h hf
  | txw => rw [operate_of_txw hr h, operate_of_txw hr h]
  | rx => simp only [operate, hr, h]; rfl
  | unused => simp only [operate, hr, h]

/-- Each of the six operations that ignore their argument is one operation but for what it latches. -/
theorem operationFor_withArg : ∀ op ∈ [Instr.getFirmware, Instr.getWorkMode, Instr.getReportingMode,
    Instr.getWorkPeriod, Instr.queryData, Instr.waitForData],
    ∀ a : Word, operationFor (op a) = (operationFor (op 0)).withArg a := by
  simp only [List.forall_mem_cons]
  exact ⟨fun _ => rfl, fun _ => rfl, fun _ => rfl, fun _ => rfl, fun _ => rfl, fun _ => rfl, nofun⟩

/-- Settles O10: the accept cycle latches the argument (`operate_withArg_of_idle`), and no later one looks at it
(`operate_withArg_of_busy`). -/
theorem ignoredArgumentOnlyLatched : Obligations.IgnoredArgumentOnlyLatched := by
  intro op hop a b s hr
  have cycle (c : Word) : exec (op c) s = operate ((operationFor (op 0)).withArg c) s := by
    rw [exec_eq_operate, operationFor_withArg op hop]
  rw [cycle a, cycle b]
  refine ⟨fun hf => ?_, fun hf => ?_⟩
  · rw [operate_withArg_of_idle hr hf, operate_withArg_of_idle hr hf]
    exact ⟨_, rfl, rfl, rfl⟩
  · rw [operate_withArg_of_busy hr hf, operate_withArg_of_busy hr hf]

end Sys2Proof.Machine
end

section
/-! The command frames, 30_encoding.md R80 to R89: the body an operation sends, byte by byte, and what the accept cycle
makes of it. -/

namespace Sys2Proof

open Machine

/-! The three variable bytes -/

/-- The class byte of an operation that sends a frame, R82. -/
def Instr.classByte : Instr → Byte
  | .getFirmware _ => 0x07
  | .getWorkMode _ | .setWorkMode _ => 0x06
  | .getReportingMode _ | .setReportingMode _ => 0x02
  | .getWorkPeriod _ | .setWorkPeriod _ => 0x08
  | .queryData _ => 0x04
  | .waitForData _ => 0x00

/-- The sub-command byte, R83. -/
def Instr.subByte (i : Instr) : Byte := if i.usesArg then 0x01 else 0x00

/-- Payload byte 0, R86. -/
def Instr.payloadByte (i : Instr) : Byte := if i.usesArg then argByte i.arg else 0x00

/-- The body of the command an operation sends, R89. -/
def Instr.commandBody (i : Instr) : Body := Machine.commandBody i.classByte i.subByte i.payloadByte

/-- The three bytes are those of the model: every operation but `WAIT_FOR_DATA` sends this body. -/
theorem operationFor_body_eq (i : Instr) :
    (operationFor i).body = if (encode i).op = 8 then none else some i.commandBody := by
  cases i <;> rfl

theorem Instr.classByte_bounds {i : Instr} (h : (encode i).op ≠ 8) :
    2 ≤ i.classByte.toNat ∧ i.classByte.toNat ≤ 8 := by
  cases i with
  | waitForData a => exact absurd rfl h
  | _ => simp [classByte]

theorem Instr.subByte_le (i : Instr) : i.subByte.toNat ≤ 1 := by
  unfold Instr.subByte
  split <;> decide

/-- Class and sub-command byte give the code back, R90. -/
def codeOfBytes (cls sub : Byte) : BitVec 4 :=
  if cls = 0x07 then 0
  else if cls = 0x06 then 1 + sub.setWidth 4
  else if cls = 0x02 then 3 + sub.setWidth 4
  else if cls = 0x08 then 5 + sub.setWidth 4
  else if cls = 0x04 then 7
  else 8

theorem codeOfBytes_eq (i : Instr) : codeOfBytes i.classByte i.subByte = (encode i).op := by
  cases i <;> rfl

end Sys2Proof

namespace Sys2Proof.Machine

open Sys2Proof.Safety

/-! Arguments that are admitted, 43_operations.md R190 -/

theorem toNat_le_of_admitPeriod {a : Word} (h : admitPeriod a = .ok) : a.toNat ≤ 30 := by
  have range : 0 ≤ a.toInt ∧ a.toInt ≤ 30 := by
    by_contra hn
    simp [admitPeriod, hn] at h
  rw [BitVec.toInt_eq_toNat_cond] at range
  split at range <;> omega

theorem eq_zero_or_one_of_admitMode {a : Word} (h : admitMode a = .ok) : a = 0 ∨ a = 1 := by
  have range : a.toInt = 0 ∨ a.toInt = 1 := by
    by_contra hn
    simp [admitMode, hn] at h
  exact range.imp BitVec.eq_of_toInt_eq BitVec.eq_of_toInt_eq

theorem toNat_le_of_admitMode {a : Word} (h : admitMode a = .ok) : a.toNat ≤ 30 := by
  rcases eq_zero_or_one_of_admitMode h with rfl | rfl <;> decide

/-- A set operation that is admitted has an argument of at most 30. -/
theorem arg_le_of_admitted {i : Instr} (hu : i.usesArg = true) (ha : (operationFor i).admission = .ok) :
    i.arg.toNat ≤ 30 := by
  cases i with
  | setWorkMode a => exact toNat_le_of_admitMode ha
  | setReportingMode a => exact toNat_le_of_admitMode ha
  | setWorkPeriod a => exact toNat_le_of_admitPeriod ha
  | _ => cases hu

theorem argByte_toNat {a : Word} (h : a.toNat ≤ 30) : (argByte a).toNat = a.toNat := by
  rw [argByte, BitVec.toNat_setWidth]
  omega

/-- The byte that is sent tells the admitted arguments apart. -/
theorem argByte_injective {a b : Word} (ha : a.toNat ≤ 30) (hb : b.toNat ≤ 30) (h : argByte a = argByte b) : a = b :=
  BitVec.eq_of_toNat_eq (by rw [← argByte_toNat ha, ← argByte_toNat hb, h])

theorem payloadByte_le {i : Instr} (ha : (operationFor i).admission = .ok) : i.payloadByte.toNat ≤ 30 := by
  unfold Instr.payloadByte
  split
  · next hu => rw [argByte_toNat (arg_le_of_admitted hu ha)]; exact arg_le_of_admitted hu ha
  · decide

/-- An operation is its code and its argument. -/
theorem eq_of_op_of_arg {i j : Instr} (hop : (encode i).op = (encode j).op) (harg : i.arg = j.arg) : i = j := by
  have hi := operationOf_encode i
  rw [hop, harg, operationOf_encode] at hi
  exact (Option.some.inj hi).symm

/-! Bytes of a frame -/

theorem encodeFrame_layout (i : Instr) : encodeFrame i.commandBody =
    #v[0xAA, 0xB4, i.classByte, i.subByte, i.payloadByte, 0, 0, 0, 0, 0, 0, 0, 0, 0, 0, 0xFF, 0xFF,
      i.classByte + (i.subByte + (i.payloadByte + 254)), 0xAB] :=
  encodeFrame_commandBody _ _ _

/-- The zero bytes of a command frame, R87. -/
theorem encodeFrame_commandBody_zero (cls rw vv : Byte) {j : Nat} (h5 : 5 ≤ j) (h14 : j ≤ 14) :
    (encodeFrame (commandBody cls rw vv))[j]'(by omega) = 0 := by
  simp only [encodeFrame_commandBody]
  interval_cases j <;> rfl

/-- The checksum byte is the checksum of the frame's own bytes 2 to 16, R130. -/
theorem encodeFrame_checksum (y : Body) :
    (encodeFrame y)[17] = checksum (slice (encodeFrame y).toList 2 16) := by
  have frame : (encodeFrame y).toList = y.toList ++ [checksum (slice y.toList 2 16), delimiter] := Vector.toList_append
  have body : slice (encodeFrame y).toList 2 16 = slice y.toList 2 16 := by
    simp [slice, frame, List.drop_append]
  rw [body]
  exact Vector.getElem_append_right (by decide) (by decide)

theorem encodeFrame_commandBody_injective {c r v c' r' v' : Byte}
    (h : encodeFrame (commandBody c r v) = encodeFrame (commandBody c' r' v')) : c = c' ∧ r = r' ∧ v = v' := by
  simp only [encodeFrame_commandBody] at h
  exact ⟨congrArg (·[2]) h, congrArg (·[3]) h, congrArg (·[4]) h⟩

/-- With a small class byte and payload the frame's only delimiter is its tail: the checksum byte is small too. -/
theorem encodeFrame_commandBody_delimiter_iff {cls sub vv : Byte} (hc : 2 ≤ cls.toNat ∧ cls.toNat ≤ 8)
    (hs : sub.toNat ≤ 1) (hv : vv.toNat ≤ 30) {j : Nat} (hj : j < 19) :
    (encodeFrame (commandBody cls sub vv))[j] = 0xAB ↔ j = 18 := by
  have small {x : Byte} (h : x.toNat ≤ 37) : x ≠ 0xAB#8 := by
    rintro rfl
    simp at h
  have sum : (cls + (sub + (vv + 254#8))).toNat ≤ 37 := by
    simp only [BitVec.toNat_add, BitVec.toNat_ofNat]
    omega
  have hcls : cls ≠ 0xAB#8 := small (by omega)
  have hsub : sub ≠ 0xAB#8 := small (by omega)
  have hpayload : vv ≠ 0xAB#8 := small (by omega)
  have hsum : cls + (sub + (vv + 254#8)) ≠ 0xAB#8 := small sum
  simp only [encodeFrame_commandBody]
  interval_cases j <;> simp [hcls, hsub, hpayload, hsum]

/-! The accept cycle of an operation that sends a frame -/

theorem exec_idle {i : Instr} {s : State} (hi : InState s .idle) :
    exec i s = .next (s.advance ((s.ticked.accept (encode i)).admitRequest (operationFor i))) := by
  obtain ⟨hr, hf⟩ := hi
  rw [exec_eq_operate, operate_of_idle hr hf, operationFor_code, operationFor_arg]

/-- An admitted operation with a frame starts its write, 42_transaction.md R155. -/
theorem exec_starts_write {i : Instr} {s : State} (hi : InState s .idle) (ha : (operationFor i).admission = .ok)
    (ho : (encode i).op ≠ 8) :
    ∃ t, exec i s = .next t ∧ t.blk.fsm = .txw ∧ t.blk.txFrame = encodeFrame i.commandBody := by
  refine ⟨_, exec_idle hi, ?_⟩
  have hb : (operationFor i).body = some i.commandBody := (operationFor_body_eq i).trans (if_neg ho)
  simp [Block.admitRequest, ha, hb]

/-- A write starts in an accept cycle only for an admitted operation with a frame, and sends that frame. -/
theorem frame_of_write_started {i : Instr} {s t : State} (hi : InState s .idle) (h : exec i s = .next t)
    (ht : t.blk.fsm = .txw) :
    (operationFor i).admission = .ok ∧ t.blk.txFrame = encodeFrame i.commandBody := by
  rw [exec_idle hi] at h
  cases h
  rcases Block.admitRequest_cases (s.ticked.accept (encode i)) (operationFor i) with
    ⟨-, -, h⟩ | ⟨ha, y, hy, h⟩ | ⟨-, h⟩ <;> rw [State.advance_blk, h] at ht ⊢
  · cases ht
  · rw [operationFor_body_eq] at hy
    split at hy
    · cases hy
    · cases hy; exact ⟨ha, rfl⟩
  · cases ht

/-- Settles O46, byte by byte of the frame the accept cycle leaves (`exec_starts_write`). -/
theorem commandFrameLayout : Obligations.CommandFrameLayout := by
  intro i s hi ha ho
  obtain ⟨t, hstep, hf, hframe⟩ := exec_starts_write hi ((operationFor_admission i).trans ha) ho
  have layout := encodeFrame_layout i
  refine ⟨t, hstep, hf, ?_⟩
  rw [hframe]
  refine ⟨congrArg (·[0]) layout, congrArg (·[1]) layout, (congrArg (·[2]) layout).trans ?_, congrArg (·[3]) layout,
    congrArg (·[4]) layout, fun j _ h5 h14 => encodeFrame_commandBody_zero _ _ _ h5 h14, congrArg (·[15]) layout,
    congrArg (·[16]) layout, encodeFrame_checksum _, congrArg (·[18]) layout⟩
  cases i <;> rfl

/-- Settles O48: the three variable bytes of the frame give back the code, and the argument where it is sent. -/
theorem commandFramesTellRequestsApart : Obligations.CommandFramesTellRequestsApart := by
  intro i i' s s' t t' hi hi' h h' ht ht' hframe
  obtain ⟨ha, hsent⟩ := frame_of_write_started hi h ht
  obtain ⟨ha', hsent'⟩ := frame_of_write_started hi' h' ht'
  obtain ⟨hcls, hsub, hpayload⟩ := encodeFrame_commandBody_injective (hsent.symm.trans (hframe.trans hsent'))
  have hop : (encode i).op = (encode i').op := by rw [← codeOfBytes_eq, ← codeOfBytes_eq, hcls, hsub]
  refine ⟨hop, fun hu => ?_⟩
  have hu' : i'.usesArg = true := by
    by_contra hn
    simp [Instr.subByte, hu, hn] at hsub
  have harg : i.arg = i'.arg := by
    simp only [Instr.payloadByte, hu, hu', if_true] at hpayload
    exact argByte_injective (arg_le_of_admitted hu ha) (arg_le_of_admitted hu' ha') hpayload
  exact eq_of_op_of_arg hop harg

/-- Settles O47: the table row by row, from the three variable bytes; they and their checksum are all small. -/
theorem commandFrameChecksums : Obligations.CommandFrameChecksums := by
  intro i body ha hb
  rw [← operationFor_admission] at ha
  rw [← operationFor_body, operationFor_body_eq] at hb
  split at hb
  · cases hb
  next ho =>
  cases hb
  refine ⟨(congrArg (·[17]) (encodeFrame_layout i)).trans ?_, fun j hj =>
    encodeFrame_commandBody_delimiter_iff (Instr.classByte_bounds ho) i.subByte_le (payloadByte_le ha) hj⟩
  cases i with
  | setWorkMode a => rcases eq_zero_or_one_of_admitMode ha with rfl | rfl <;> rfl
  | setReportingMode a => rcases eq_zero_or_one_of_admitMode ha with rfl | rfl <;> rfl
  | setWorkPeriod a =>
    have row (x : Byte) : 0x08 + (0x01 + (x + 254)) = 7 + x := by bv_omega
    exact (row (argByte a)).trans (BitVec.ofNat_add 7 a.toNat).symm
  | waitForData a => exact absurd rfl ho
  | _ => simp [Instr.classByte, Instr.subByte, Instr.payloadByte, Instr.usesArg]

end Sys2Proof.Machine
end

section
/-! The checksum (40_checksum.md): it is the sum of the bytes as 8-bit words, so the library's laws of sums of lists carry
over to it. -/

namespace Sys2Proof.Machine

/-- The low 8 bits of the exact sum are the sum with every carry discarded, R120. -/
theorem checksum_eq_sum (s : List Byte) : checksum s = s.sum := by
  induction s with
  | nil => rfl
  | cons x s ih => rw [checksum_cons, List.sum_cons, ih]

@[simp] theorem checksum_append (s t : List Byte) : checksum (s ++ t) = checksum s + checksum t := by
  simp only [checksum_eq_sum, List.sum_append]

theorem checksum_eq_of_perm {s t : List Byte} (h : s.Perm t) : checksum s = checksum t := by
  rw [checksum_eq_sum, checksum_eq_sum, h.sum_eq]

/-- Settles O43: the running sum is the sum of the 8-bit words; the sum modulo 256 is the definition. -/
theorem checksumIsRunningSum : Obligations.ChecksumIsRunningSum := fun s =>
  ⟨(checksum_eq_sum s).trans List.sum_eq_foldl, BitVec.toNat_ofNat _ _⟩

/-- Settles O44: a sum of words sees no order, and `k` cancels in it. -/
theorem checksumIgnoresOrder : Obligations.ChecksumIgnoresOrder := by
  refine ⟨fun _ _ => checksum_eq_of_perm, fun p q r x y k => ?_⟩
  simp only [checksum_append, checksum_cons, checksum_nil]
  ring

/-- Settles O45: a zero byte adds nothing, and the frame of a body is known byte by byte (`encodeFrame_commandBody`). -/
theorem zeroPadKeepsChecksum : Obligations.ZeroPadKeepsChecksum := by
  have pad : checksum [0x00] = 0 := rfl
  refine ⟨fun s => by rw [checksum_append, pad, add_zero], fun cls rw vv => ?_⟩
  have sent : (encodeFrame (commandBody cls rw vv))[17] = cls + (rw + (vv + 254#8)) :=
    congrArg (·[17]) (encodeFrame_commandBody cls rw vv)
  rw [sent]
  simp only [BitVec.toNat_add, BitVec.toNat_ofNat]
  omega

end Sys2Proof.Machine
end

section
/-! The end of the bounded read, 41_frame_codec.md R133 to R136: what the verdict on the capture is when the delimiter
comes, and that the bounded registers hold all that the verdict on the unbounded capture reads. -/

namespace Sys2Proof.Machine

open Sys2Proof.Safety

/-! The bytes that `Validate` reads -/

theorem slice_capture (buf : Capture) :
    slice buf.toList 2 7 = [buf[2], buf[3], buf[4], buf[5], buf[6], buf[7]] := by
  obtain ⟨⟨l⟩, hl⟩ := buf
  match l, hl with
  | [_, _, _, _, _, _, _, _, _, _], _ => rfl

theorem validate_of_wrong_checksum {buf : Capture}
    (h : checksum [buf[2], buf[3], buf[4], buf[5], buf[6], buf[7]] ≠ buf[8]) :
    validate buf 10 = .checksumError := by
  rw [validate_ten, slice_capture, if_pos h]

/-! The cycle that takes the delimiter -/

theorem Block.capture_rxLen_eq_ten_iff {b : Block} {x : Byte} : (b.capture x).rxLen = 10 ↔ b.rxLen = 9 := by
  rw [← BitVec.toNat_inj, ← BitVec.toNat_inj, Block.capture_rxLen_toNat]
  change min (b.rxLen.toNat + 1) 255 = 10 ↔ b.rxLen.toNat = 9
  omega

theorem Block.capture_tenth {b : Block} (h : b.rxLen = 9) (x : Byte) :
    b.capture x = { b with rxBuf := b.rxBuf.set 9 x, rxLen := 10 } := by
  have inBounds : b.rxBuf.setIfInBounds 9 x = b.rxBuf.set 9 x := by
    ext j hj
    rw [Vector.getElem_setIfInBounds, Vector.getElem_set]
  rw [← inBounds, Block.capture, h]
  rfl

theorem State.ticked_of_rx {s : State} (hf : s.blk.fsm = .rx) :
    s.ticked = { s.blk with txReqQ := false, pulse := false } := by
  simp [State.ticked, txReq, hf]

/-- The delimiter ends the read with the error that `Validate` answers, 42_transaction.md R162 and R164. -/
theorem exec_delimiter_of_error {s : State} (i : Instr) (hs : Reading s) (hx : s.pins.rx = some 0xAB) {c : Code}
    (hv : validate (s.blk.capture delimiter).rxBuf (s.blk.capture delimiter).rxLen = c) (hc : c ≠ .ok) :
    exec i s = .next (s.advance { failed (s.blk.capture delimiter) c.bits with txReqQ := false }) := by
  obtain ⟨⟨hr, hf⟩, hw, he⟩ := hs
  have takes_delimiter : s.ticked.rxOpen (operationFor i) s.pins =
      (s.ticked.capture delimiter).finish (operationFor i) s.pins.timeIn := by
    simp only [Block.rxOpen, he, hx]
    rfl
  have verdict : validate (s.ticked.capture delimiter).rxBuf (s.ticked.capture delimiter).rxLen = c := hv
  rw [exec_eq_operate, operate_of_rx hr hf hw, takes_delimiter, Block.finish_eq, verdict, if_neg hc,
    State.ticked_of_rx hf]
  rfl

/-- Settles O17: the length after the delimiter is 10 only if it was 9 before. -/
theorem wrongLengthResult : Obligations.WrongLengthResult := by
  intro i s hs hx hl
  have len : (s.blk.capture delimiter).rxLen ≠ 10 := mt Block.capture_rxLen_eq_ten_iff.mp hl
  rw [exec_delimiter_of_error i hs hx (validate_length len) (by decide)]
  rfl

/-- Settles O18: the delimiter goes to byte 9, so the checksum is that of the bytes already there. -/
theorem wrongChecksumResult : Obligations.WrongChecksumResult := by
  intro i s hs hx hl hsum
  have verdict : validate (s.blk.capture delimiter).rxBuf (s.blk.capture delimiter).rxLen = .checksumError := by
    rw [Block.capture_tenth hl]
    refine validate_of_wrong_checksum ?_
    simpa [← add_assoc] using hsum
  rw [exec_delimiter_of_error i hs hx verdict (by decide), Block.capture_tenth hl]
  rfl

/-! The capture of a sequence of bytes -/

theorem foldl_capture_rxLen_toNat (b : Block) (r : Request) (raw : List Byte) :
    (raw.foldl Block.capture (b.accept r)).rxLen.toNat = min raw.length 255 := by
  induction raw using List.reverseRecOn with
  | nil => rfl
  | append_singleton raw x ih =>
    rw [List.foldl_concat, Block.capture_rxLen_toNat, ih, List.length_append, List.length_singleton]
    omega

/-- The buffer holds the first ten bytes, and zeros where none has come, 42_transaction.md R154 and R161. -/
theorem foldl_capture_rxBuf_getElem (b : Block) (r : Request) (raw : List Byte) {j : Nat} (hj : j < 10) :
    (raw.foldl Block.capture (b.accept r)).rxBuf[j] = raw[j]?.getD 0 := by
  induction raw using List.reverseRecOn with
  | nil => simp
  | append_singleton raw x ih =>
    have next : (raw.foldl Block.capture (b.accept r)).rxLen.toNat = j ↔ j = raw.length := by
      rw [foldl_capture_rxLen_toNat]
      omega
    rw [List.foldl_concat, Block.capture_rxBuf_getElem _ _ hj, ih, List.getElem?_append]
    simp only [next]
    rcases Nat.lt_trichotomy j raw.length with hlt | rfl | hgt
    · simp [hlt, hlt.ne]
    · simp
    · simp [hgt.not_gt, hgt.ne', Nat.sub_ne_zero_of_lt hgt]

theorem foldl_capture_rxBuf_getElem_of_lt (b : Block) (r : Request) {raw : List Byte} {j : Nat} (hj : j < 10)
    (h : j < raw.length) : (raw.foldl Block.capture (b.accept r)).rxBuf[j] = raw[j] := by
  rw [foldl_capture_rxBuf_getElem b r raw hj, List.getElem?_eq_getElem h, Option.getD_some]

/-- A capture of ten bytes is in the buffer whole. -/
theorem foldl_capture_rxBuf_toList (b : Block) (r : Request) {raw : List Byte} (h : raw.length = 10) :
    (raw.foldl Block.capture (b.accept r)).rxBuf.toList = raw := by
  refine List.ext_getElem (by simp [h]) fun j hj hj' => ?_
  rw [Vector.getElem_toList, foldl_capture_rxBuf_getElem_of_lt b r (by omega) hj']

/-- Bytes other than the delimiter leave the buffer clean. -/
theorem captureClean_foldl (b : Block) (r : Request) {pre : List Byte} (h : ∀ x ∈ pre, x ≠ delimiter) :
    CaptureClean (pre.foldl Block.capture (b.accept r)) :=
  List.foldlRecOn pre Block.capture (captureClean_accept b r) fun _ hc x hx => captureClean_capture hc (h x hx)

/-- Both length checks fail, or the capture is in the buffer whole. -/
theorem validate_foldl_capture (b : Block) (r : Request) (raw : List Byte) :
    validate (raw.foldl Block.capture (b.accept r)).rxBuf (raw.foldl Block.capture (b.accept r)).rxLen =
      specValidate raw := by
  have ten : (raw.foldl Block.capture (b.accept r)).rxLen = 10 ↔ raw.length = 10 := by
    rw [← BitVec.toNat_inj, foldl_capture_rxLen_toNat]
    change min raw.length 255 = 10 ↔ raw.length = 10
    omega
  by_cases h : raw.length = 10
  · have whole := foldl_capture_rxBuf_toList b r h
    have byte8 : (raw.foldl Block.capture (b.accept r)).rxBuf[8] = raw[8] :=
      foldl_capture_rxBuf_getElem_of_lt b r (by omega) (by omega)
    rw [ten.mpr h, validate_ten, whole, specValidate, if_neg (not_not.mpr h)]
    exact if_congr (by simp [slice, h, byte8]) rfl rfl
  · rw [validate_length (mt ten.mp h), specValidate, if_pos h]

/-- Settles O49: `validate_foldl_capture`; past the length check the delimiter is the tenth byte of a clean buffer. -/
theorem boundedCaptureGivesSameVerdict : Obligations.BoundedCaptureGivesSameVerdict := by
  refine ⟨fun b r raw => ⟨validate_foldl_capture b r raw, foldl_capture_rxLen_toNat b r raw⟩, ?_⟩
  intro b r pre hpre c hv
  have capture : c = (pre.foldl Block.capture (b.accept r)).capture delimiter := List.foldl_concat ..
  have len : c.rxLen = 10 := by
    by_contra hl
    rw [validate_length hl] at hv
    simp at hv
  rw [capture] at len ⊢
  exact (frameCaptured_capture (captureClean_foldl b r hpre) len).2

end Sys2Proof.Machine
end

section
/-! What a step runs and how a transaction starts, 42_transaction.md R151 to R155: the operation fetched, the quiet
cycle, the accept cycle of an admitted request, and the channel's bytes while the block is `IDLE`. -/

namespace Sys2Proof.Machine

open Sys2Proof.Safety

theorem step_eq_exec_of_fetch {s : State} {i : Instr} (h : fetch s = .run i) : step s = exec i s := by
  rw [step_of_fetch_run h, exec_eq_operate]

/-- Settles O4: in `IDLE` the request is fetched, in `TXW` and `RX` the operation in `OP` and `ARG`. -/
theorem stepRunsDecodedOperation : Obligations.StepRunsDecodedOperation := by
  intro s i hr he
  refine ⟨fun hf hq => step_eq_exec_of_fetch ?_, fun hf ho => step_eq_exec_of_fetch ?_⟩
  · rw [fetch_idle hr he hf hq, fetchRequest_encode]
  · rw [fetch_busy hr he hf, fetchBusy_of_encode ho]

theorem ticked_idle {s : State} (hf : s.blk.fsm = .idle) : s.ticked = { s.blk with txReqQ := false, pulse := false } :=
  ticked_of_ne_txw (by simp [hf])

/-- Settles O28: the quiet arm of `Cycle`, which only ticks. -/
theorem quietIdleCycle : Obligations.QuietIdleCycle := by
  intro s ⟨hr, hf⟩ he hq
  exact ticked_idle hf ▸ (Cycle.quiet hf hq).step_eq hr he

theorem accept_ticked_idle {s : State} (hf : s.blk.fsm = .idle) (r : Request) :
    s.ticked.accept r = accepted s.blk r.op r.arg := by
  rw [ticked_idle hf]; rfl

/-- Settles O6: by the template a write starts or a read. -/
theorem admittedRequestStarts : Obligations.AdmittedRequestStarts := by
  intro i s hi ha
  have ⟨_, hf⟩ := hi
  rw [exec_idle hi, accept_ticked_idle hf, ← operationFor_body]
  rw [← operationFor_admission] at ha
  cases hb : (operationFor i).body <;> simp only [Block.admitRequest, ha, hb] <;> rfl

/-! The channel while the block is idle, R153 -/

theorem takesRxErr_idle {s : State} (hf : s.blk.fsm = .idle) : s.takesRxErr = false := by
  simp [State.takesRxErr, hf]

theorem rxReady_idle {s : State} (hi : InState s .idle) :
    rxReady s.cfg s.blk s.pins.rst = (s.cfg.rxIdlePolicy == .drop) := by
  obtain ⟨hr, hf⟩ := hi
  simp only [rxReady, hr, hf]
  rfl

theorem byteTaken_idle {s : State} (hi : InState s .idle) :
    s.byteTaken = (s.pins.rx.isSome && s.cfg.rxIdlePolicy == .drop) := by
  rw [State.byteTaken, rxReady_idle hi, takesRxErr_idle hi.2, Bool.not_false, Bool.and_true]

theorem chanIn_of_byteTaken_false {s t : State} (h : step s = .next t) (hb : s.byteTaken = false) :
    t.env.chanIn = s.inbound := by
  simp [(step_env h).1, hb]

theorem inbound_of_taken {s t : State} {x : Byte} (h : step s = .next t) (hb : s.byteTaken = true)
    (hx : s.pins.rx = some x) : s.inbound = x :: t.env.chanIn := by
  simpa [(step_env h).1, hb] using inbound_of_rx hx

theorem Block.admitRequest_rxBuf (b : Block) (o : Operation) : (b.admitRequest o).rxBuf = b.rxBuf := by
  rcases b.admitRequest_cases o with ⟨-, -, h⟩ | ⟨-, y, -, h⟩ | ⟨-, h⟩ <;> rw [h] <;> rfl

theorem Block.admitRequest_rxLen (b : Block) (o : Operation) : (b.admitRequest o).rxLen = b.rxLen := by
  rcases b.admitRequest_cases o with ⟨-, -, h⟩ | ⟨-, y, -, h⟩ | ⟨-, h⟩ <;> rw [h] <;> rfl

/-- An idle cycle with a request clears the capture, R154, and one without leaves it alone. -/
theorem Cycle.capture_of_idle {s : State} {b : Block} (h : Cycle s b) (hf : s.blk.fsm = .idle) :
    b.rxBuf = (if s.pins.req.isSome then Vector.replicate 10 0 else s.blk.rxBuf) ∧
    b.rxLen = (if s.pins.req.isSome then 0 else s.blk.rxLen) := by
  have busy {f : Fsm} (h : s.blk.fsm = f) (hne : f ≠ .idle) : False := hne (h.symm.trans hf)
  cases h with
  | quiet _ hq => rw [hq]; exact ⟨rfl, rfl⟩
  | reserved r _ hq ho => rw [hq]; exact ⟨rfl, rfl⟩
  | accepted i _ hq => rw [hq, Block.admitRequest_rxBuf, Block.admitRequest_rxLen]; exact ⟨rfl, rfl⟩
  | writing i hw ho => exact (busy hw nofun).elim
  | reading i hw ho _ => exact (busy hw nofun).elim
  | timedOut i hw ho _ => exact (busy hw nofun).elim

theorem Cycle.eq_ticked_of_quiet {s : State} {b : Block} (h : Cycle s b) (hf : s.blk.fsm = .idle)
    (hq : s.pins.req = none) : b = s.ticked := by
  rcases h.progress with ⟨-, -, hb⟩ | ⟨r, -, hr, -⟩ | ⟨hb, -⟩
  · exact hb
  · cases hq.symm.trans hr
  · exact absurd hf hb

/-- Settles O29: in `IDLE` the policy alone decides whether an offered byte is taken (`byteTaken_idle`). -/
theorem idleBytesByPolicy : Obligations.IdleBytesByPolicy := by
  intro s t hi h
  have ⟨hr, hf⟩ := hi
  obtain ⟨-, hc⟩ := cycle_of_step hr h
  refine ⟨fun hp => ?_, fun hp => ?_, fun hq => ?_, hc.capture_of_idle hf⟩
  · have kept : s.byteTaken = false := byteTaken_idle_hold hf hp
    exact ⟨(rxReady_idle hi).trans (by rw [hp]; rfl), takesRxErr_idle hf, chanIn_of_byteTaken_false h kept⟩
  · have taken : s.byteTaken = s.pins.rx.isSome := by
      rw [byteTaken_idle hi, hp]; exact Bool.and_true _
    refine ⟨(rxReady_idle hi).trans (by rw [hp]; rfl), takesRxErr_idle hf, fun x hx => ?_, fun hx => ?_⟩
    · exact inbound_of_taken h (by rw [taken, hx]; rfl) hx
    · exact chanIn_of_byteTaken_false h (by rw [taken, hx]; rfl)
  · rw [hc.eq_ticked_of_quiet hf hq, ticked_idle hf]

end Sys2Proof.Machine
end

section
/-! One cycle of the bounded read, 42_transaction.md R159 to R163, whichever operation it belongs to. -/

namespace Sys2Proof.Machine

open Sys2Proof.Safety

/-! The window open -/

theorem Block.rxOpen_of_failure {b : Block} {o : Operation} {p : Pins} (he : p.rxErr = true) :
    b.rxOpen o p = b.endOperation .ioError := by
  simp only [Block.rxOpen, he, if_true, Block.completeError_eq]

theorem Block.rxOpen_of_silence {b : Block} {o : Operation} {p : Pins} (he : p.rxErr = false) (hx : p.rx = none) :
    b.rxOpen o p = b.countCycle := by
  simp only [Block.rxOpen, he, hx, Bool.false_eq_true, if_false]

theorem Block.rxOpen_of_byte {b : Block} {o : Operation} {p : Pins} {x : Byte} (he : p.rxErr = false)
    (hx : p.rx = some x) : b.rxOpen o p = b.takeByte o p.timeIn x := by
  simp only [Block.rxOpen, he, hx, Bool.false_eq_true, if_false]

theorem exec_window_open {s : State} (i : Instr) (hs : InState s .rx) (hw : s.blk.timer.toNat < s.cfg.timeoutCycles) :
    exec i s = .next (s.advance (s.ticked.rxOpen (operationFor i) s.pins)) := by
  obtain ⟨hr, hf⟩ := hs
  rw [exec_eq_operate, operate_of_rx hr hf hw]

/-- Whatever `Finish` decides, it is a completion, 42_transaction.md R164. -/
theorem Block.finish_eq_complete (b : Block) (o : Operation) (t : Time) : ∃ v, b.finish o t = b.complete v := by
  rw [Block.finish_eq]
  split
  · exact ⟨_, rfl⟩
  · exact ⟨⟨_, none⟩, (b.complete_none _).symm⟩

/-- A byte is captured whether or not it ends the read, R161. -/
theorem Block.takeByte_capture (b : Block) (o : Operation) (t : Time) (x : Byte) :
    (b.takeByte o t x).rxBuf = (b.capture x).rxBuf ∧ (b.takeByte o t x).rxLen = (b.capture x).rxLen := by
  unfold Block.takeByte
  split
  · obtain ⟨v, hv⟩ := (b.capture x).finish_eq_complete o t
    rw [hv]
    exact ⟨Block.complete_rxBuf _ _, Block.complete_rxLen _ _⟩
  · exact ⟨rfl, rfl⟩

/-! The pins of the channel in a read -/

theorem rxReady_rx {s : State} (hs : InState s .rx) : rxReady s.cfg s.blk s.pins.rst = inWindow s.cfg s.blk := by
  obtain ⟨hr, hf⟩ := hs
  simp only [rxReady, hr, hf]
  exact Bool.or_false _

theorem takesRxErr_rx {s : State} (hs : InState s .rx) :
    s.takesRxErr = (inWindow s.cfg s.blk && s.pins.rxErr) := by
  obtain ⟨hr, hf⟩ := hs
  simp only [State.takesRxErr, hr, hf, Bool.not_false, Bool.and_true]
  rfl

theorem byteTaken_rx {s : State} (hs : InState s .rx) :
    s.byteTaken = (s.pins.rx.isSome && inWindow s.cfg s.blk && !s.pins.rxErr) := by
  rw [State.byteTaken, rxReady_rx hs, takesRxErr_rx hs]
  cases inWindow s.cfg s.blk <;> simp

theorem byteTaken_reading {s : State} (hs : Reading s) : s.byteTaken = s.pins.rx.isSome := by
  obtain ⟨hi, hw, he⟩ := hs
  rw [byteTaken_rx hi, he, inWindow, decide_eq_true hw, Bool.and_true, Bool.not_false, Bool.and_true]

/-- Settles O19: the byte is captured (`Block.takeByte_capture`), and transferred because the window is open. -/
theorem byteCapture : Obligations.ByteCapture := by
  intro i s x hs hx
  have ⟨hi, hw, he⟩ := hs
  obtain ⟨hbuf, hlen⟩ := s.ticked.takeByte_capture (operationFor i) s.pins.timeIn x
  refine ⟨_, exec_window_open i hi hw, fun j hj => ?_, ?_, by rw [byteTaken_reading hs, hx]; rfl⟩
  · simp only [State.advance_blk, Block.rxOpen_of_byte he hx, hbuf, Block.capture_rxBuf_getElem _ _ hj]
    simp only [State.ticked_rxLen, State.ticked_rxBuf, eq_comm]
  · rw [State.advance_blk, Block.rxOpen_of_byte he hx, hlen, Block.capture_rxLen_toNat, State.ticked_rxLen]

/-- Settles O20: a byte other than the delimiter is captured and the cycle counted. -/
theorem readContinues : Obligations.ReadContinues := by
  intro i s x ⟨hi, hw, he⟩ hx hne
  have goes_on : s.ticked.takeByte (operationFor i) s.pins.timeIn x = (s.ticked.capture x).countCycle := if_neg hne
  rw [exec_window_open i hi hw, Block.rxOpen_of_byte he hx, goes_on, State.ticked_of_rx hi.2]
  rfl

/-- With the window open the read ends, or goes on with the cycle counted, R163. -/
theorem Block.rxOpen_ends_or_counts (b : Block) (o : Operation) (p : Pins) :
    ((b.rxOpen o p).fsm = .idle ∧ (b.rxOpen o p).timer = b.timer) ∨
    ((b.rxOpen o p).fsm = b.fsm ∧ (b.rxOpen o p).timer = b.timer + 1) := by
  rcases b.rxOpen_cases o p with ⟨-, h⟩ | ⟨-, -, h⟩ | ⟨-, x, -, -, h⟩ | ⟨-, -, h⟩ <;> rw [h]
  · exact .inl ⟨rfl, rfl⟩
  · exact .inr ⟨rfl, rfl⟩
  · exact .inr ⟨rfl, rfl⟩
  · obtain ⟨v, hv⟩ := (b.capture delimiter).finish_eq_complete o p.timeIn
    rw [hv]
    exact .inl ⟨Block.complete_fsm _ _, Block.complete_timer _ _⟩

/-- Settles O21: a silent cycle counts, and a cycle after which the block is still in `RX` had the window open. -/
theorem timerCountsReadCycles : Obligations.TimerCountsReadCycles := by
  refine ⟨fun i s ⟨hi, hw, he⟩ hx => ?_, fun i s t ⟨hr, hf⟩ h ht => ?_⟩
  · rw [exec_window_open i hi hw, Block.rxOpen_of_silence he hx, State.ticked_of_rx hi.2]
    rfl
  · rw [exec_eq_operate] at h
    rcases operate_next_cases h with ⟨h1, -⟩ | ⟨-, h1, -⟩ | ⟨-, h1, -⟩ | ⟨-, -, -, rfl⟩ | ⟨-, -, -, rfl⟩
    · cases hr.symm.trans h1
    · cases hf.symm.trans h1
    · cases hf.symm.trans h1
    · rcases s.ticked.rxOpen_ends_or_counts (operationFor i) s.pins with ⟨hend, -⟩ | ⟨-, count⟩
      · cases hend.symm.trans ht
      · exact count
    · cases ht

/-! The ends of a read that no byte makes -/

theorem inWindow_of_timer_eq {s : State} (hw : s.blk.timer.toNat = s.cfg.timeoutCycles) :
    inWindow s.cfg s.blk = false := decide_eq_false hw.not_lt

/-- Settles O22: at the end of the window `rx_ready` is 0. -/
theorem readTimesOut : Obligations.ReadTimesOut := by
  intro i s hi hw
  have ⟨hr, hf⟩ := hi
  have closed := inWindow_of_timer_eq hw
  refine ⟨?_, (rxReady_rx hi).trans closed, ?_, ?_⟩
  · rw [exec_eq_operate, operate_of_timeout hr hf hw, State.ticked_of_rx hf]; rfl
  · rw [byteTaken_rx hi, closed, Bool.and_false, Bool.false_and]
  · rw [takesRxErr_rx hi, closed, Bool.false_and]

/-- Settles O23: `rx_err` comes before the byte on offer. -/
theorem readFailure : Obligations.ReadFailure := by
  intro i s hi hw he
  have ⟨_, hf⟩ := hi
  have no_byte : s.byteTaken = false := by rw [byteTaken_rx hi, he, Bool.not_true, Bool.and_false]
  refine ⟨?_, ?_, no_byte, by rw [State.nextEnv_chanIn, no_byte]; rfl⟩
  · rw [exec_window_open i hi hw, Block.rxOpen_of_failure he, State.ticked_of_rx hf]; rfl
  · rw [takesRxErr_rx hi, he, Bool.and_true, inWindow, decide_eq_true hw]

end Sys2Proof.Machine
end

section
/-! The write, 42_transaction.md R157 and R158. -/

namespace Sys2Proof.Machine

open Sys2Proof.Safety

theorem exec_writing {s : State} (i : Instr) (hs : InState s .txw) :
    exec i s = .next (s.advance (s.ticked.txStep s.pins.tx)) := by
  obtain ⟨hr, hf⟩ := hs
  rw [exec_eq_operate, operate_of_txw hr hf]

/-- Settles O24, answer by answer. -/
theorem writeAnswerResult : Obligations.WriteAnswerResult := by
  intro i s hs
  have ⟨hr, hf⟩ := hs
  refine ⟨byteTaken_txw hf, ?_⟩
  rw [exec_writing i hs, ticked_txw hf hr]
  cases s.pins.tx with
  | none => rfl
  | some a => simp only [Block.txStep]; split_ifs <;> rfl

theorem pins_tx_none {s : State} (h : s.drive.answer = none) : s.pins.tx = none := by
  simp [State.pins, h]

/-- A cycle in `TXW` without an answer only ticks, R158. -/
theorem step_unanswered {s : State} (hs : InState s .txw) (ho : s.blk.op.toNat ≤ 8) (he : s.blk.err.toNat ≤ 8)
    (ha : s.pins.tx = none) : step s = .next (s.advance s.ticked) := by
  obtain ⟨hr, hf⟩ := hs
  obtain ⟨i, hi⟩ := exists_encode_of_op_le (r := ⟨s.blk.op, s.blk.arg⟩) ho
  rw [(Cycle.writing i hf hi).step_eq hr he, ha]
  rfl

/-- Settles O25, by induction on the number of cycles: each only ticks (`step_unanswered`). -/
theorem unansweredWriteHangs : Obligations.UnansweredWriteHangs := by
  refine ⟨fun n => ?_, fun s _ hr => ⟨_, step_reset hr, rfl⟩⟩
  induction n with
  | zero => exact fun s hf _ _ _ => ⟨s, runFor_zero s, hf, rfl⟩
  | succ n ih =>
    intro s hf ho he hd
    obtain ⟨⟨hr, ha⟩, rest⟩ := nextDrives_head hd
    have hstep := step_unanswered ⟨hr, hf⟩ ho he (pins_tx_none ha)
    obtain ⟨t, hrun, kept⟩ := ih (s.advance s.ticked) hf ho he (rest s.ticked)
    exact ⟨t, (runFor_next hstep).trans hrun, kept⟩

end Sys2Proof.Machine
end

section
/-! The frame of one cycle of an operation, 42_transaction.md R151 to R164: what each part of a cycle leaves as it
was. -/

namespace Sys2Proof.Machine

open Sys2Proof.Safety

/-! The accept cycle and the write -/

theorem Block.admitRequest_frame (b : Block) (o : Operation) :
    b.SameResults (b.admitRequest o) ∧ ((b.admitRequest o).fsm ≠ .txw → (b.admitRequest o).txFrame = b.txFrame) := by
  rcases b.admitRequest_cases o with ⟨-, -, h⟩ | ⟨-, y, -, h⟩ | ⟨-, h⟩ <;> rw [h]
  · exact ⟨⟨rfl, rfl, rfl, rfl⟩, fun _ => rfl⟩
  · exact ⟨⟨rfl, rfl, rfl, rfl⟩, fun hne => absurd rfl hne⟩
  · exact ⟨⟨rfl, rfl, rfl, rfl⟩, fun _ => rfl⟩

theorem Block.txStep_frame (b : Block) (a : Option WriteAnswer) :
    b.SameResults (b.txStep a) ∧ (b.txStep a).txFrame = b.txFrame ∧ (b.txStep a).rxBuf = b.rxBuf ∧
      (b.txStep a).rxLen = b.rxLen ∧ ((b.txStep a).fsm ≠ .rx → (b.txStep a).timer = b.timer) := by
  rcases b.txStep_cases a with ⟨-, h⟩ | ⟨w, -, -, h⟩ | ⟨w, -, -, -, h⟩ | ⟨-, h⟩ <;> rw [h]
  · exact ⟨⟨rfl, rfl, rfl, rfl⟩, rfl, rfl, rfl, fun _ => rfl⟩
  · exact ⟨⟨rfl, rfl, rfl, rfl⟩, rfl, rfl, rfl, fun _ => rfl⟩
  · exact ⟨⟨rfl, rfl, rfl, rfl⟩, rfl, rfl, rfl, fun _ => rfl⟩
  · exact ⟨⟨rfl, rfl, rfl, rfl⟩, rfl, rfl, rfl, fun hne => absurd rfl hne⟩

/-! The read -/

/-- What a cycle of the read of `i` leaves as it was, when it takes a byte or takes none (`taken`). -/
structure Block.ReadFrame (i : Instr) (taken : Bool) (b b' : Block) : Prop where
  txFrame : b'.txFrame = b.txFrame
  rxBuf : ∀ j (h : j < 10), j ≠ b.rxLen.toNat ∨ taken = false → b'.rxBuf[j] = b.rxBuf[j]
  rxLen : taken = false → b'.rxLen = b.rxLen
  timer : b'.fsm = .idle → b'.timer = b.timer
  ts : (encode i).op ≠ 7 → (encode i).op ≠ 8 → b'.ts = b.ts

theorem Block.readFrame_endOperation (i : Instr) (taken : Bool) (b : Block) (c : Code) :
    b.ReadFrame i taken (b.endOperation c) :=
  ⟨rfl, fun _ _ _ => rfl, fun _ => rfl, fun _ => rfl, fun _ _ => rfl⟩

theorem Block.capture_rxBuf_of_ne {b : Block} (x : Byte) {j : Nat} (hj : j < 10) (h : j ≠ b.rxLen.toNat) :
    (b.capture x).rxBuf[j] = b.rxBuf[j] := by
  rw [Block.capture_rxBuf_getElem b x hj, if_neg h.symm]

theorem Block.readFrame_capture (i : Instr) {b : Block} (hf : b.fsm ≠ .idle) (x : Byte) :
    b.ReadFrame i true (b.capture x).countCycle :=
  ⟨rfl, fun _ hj h => Block.capture_rxBuf_of_ne x hj (h.resolve_right nofun), nofun, fun h => absurd h hf,
    fun _ _ => rfl⟩

theorem Block.readFrame_finish (i : Instr) (b : Block) (x : Byte) (t : Time) :
    b.ReadFrame i true ((b.capture x).finish (operationFor i) t) := by
  obtain ⟨v, hv⟩ := (b.capture x).finish_eq_complete (operationFor i) t
  have stamp := (b.capture x).finish_ts i t
  rw [hv] at stamp ⊢
  refine ⟨Block.complete_txFrame _ _, fun j hj h => ?_, nofun, fun _ => Block.complete_timer _ _, fun h7 h8 => ?_⟩
  · simp only [Block.complete_rxBuf]
    exact Block.capture_rxBuf_of_ne x hj (h.resolve_right nofun)
  · exact stamp.resolve_right fun ⟨_, h⟩ => h.elim h7 h8

theorem Block.readFrame_rxOpen (i : Instr) {b : Block} (hf : b.fsm ≠ .idle) (p : Pins) :
    b.ReadFrame i (p.rx.isSome && !p.rxErr) (b.rxOpen (operationFor i) p) := by
  rcases b.rxOpen_cases (operationFor i) p with ⟨-, h⟩ | ⟨-, -, h⟩ | ⟨he, x, hx, -, h⟩ | ⟨he, hx, h⟩ <;> rw [h]
  · exact b.readFrame_endOperation i _ _
  · exact ⟨rfl, fun _ _ _ => rfl, fun _ => rfl, fun h => absurd h hf, fun _ _ => rfl⟩
  · rw [hx, he]; exact Block.readFrame_capture i hf x
  · rw [hx, he]; exact b.readFrame_finish i _ _

/-- A cycle in `RX` is progress of its operation within the frame of the read. -/
theorem exec_rx_frame {i : Instr} {s t : State} (hs : InState s .rx) (h : exec i s = .next t) :
    s.ticked.Progress t.blk ∧ s.ticked.ReadFrame i s.byteTaken t.blk := by
  have ⟨hr, hf⟩ := hs
  have busy : s.ticked.fsm ≠ .idle := by simp [hf]
  rw [exec_eq_operate] at h
  rcases operate_next_cases h with ⟨h1, -⟩ | ⟨-, h1, -⟩ | ⟨-, h1, -⟩ | ⟨-, -, hw, rfl⟩ | ⟨-, -, hw, rfl⟩
  · cases hr.symm.trans h1
  · cases hf.symm.trans h1
  · cases hf.symm.trans h1
  · have taken : s.byteTaken = (s.pins.rx.isSome && !s.pins.rxErr) := by
      rw [byteTaken_rx hs, inWindow, decide_eq_true hw, Bool.and_true]
    exact ⟨Block.progress_rxOpen busy _ _, taken ▸ Block.readFrame_rxOpen i busy _⟩
  · exact ⟨Block.progress_endOperation _ _, Block.readFrame_endOperation i _ _ _⟩

/-! Any cycle -/

theorem exec_cfg {i : Instr} {s t : State} (h : exec i s = .next t) : t.cfg = s.cfg := by
  rw [exec_eq_operate] at h
  rcases operate_next_cases h with ⟨-, rfl⟩ | ⟨-, -, rfl⟩ | ⟨-, -, rfl⟩ | ⟨-, -, -, rfl⟩ | ⟨-, -, -, rfl⟩ <;> rfl

theorem exec_unused {s : State} (i : Instr) (hs : InState s .unused) : exec i s = .fault .fsmUnused := by
  obtain ⟨hr, hf⟩ := hs
  simp only [exec_eq_operate, operate, hr, hf, Bool.false_eq_true, if_false]

theorem Block.Progress.sameResults {b b' : Block} (hp : b.Progress b') (h : b'.fsm ≠ .idle ∨ b'.err ≠ 0) :
    b.SameResults b' := by
  by_cases hf : b'.fsm = .idle
  · obtain ⟨-, -, hsame⟩ := hp.ends hf
    exact hsame (h.resolve_left fun hne => hne hf)
  · obtain ⟨-, -, -, hsame⟩ := hp.goesOn hf
    exact hsame

theorem Block.Progress.flags {b b' : Block} (hp : b.Progress b') (hf : b'.fsm ≠ .idle) :
    b'.err = b.err ∧ b'.done = b.done := by
  obtain ⟨-, hdone, herr, -⟩ := hp.goesOn hf
  exact ⟨herr, hdone⟩

theorem txReq_iff {s : State} (hr : s.pins.rst = false) : txReq s.blk s.pins.rst = true ↔ s.blk.fsm = .txw := by
  simp [-State.pins_rst, txReq, hr]

/-- Settles O40, by the sequencer state: the accept cycle by `Block.admitRequest_frame`, the write by
`Block.txStep_frame`, the read by `exec_rx_frame`. -/
theorem operationFrame : Obligations.OperationFrame := by
  intro i s t hr h
  cases hf : s.blk.fsm with
  | idle =>
    rw [exec_idle ⟨hr, hf⟩] at h
    cases h
    have progress := (s.ticked.accept (encode i)).progress_admitRequest (operationFor i)
    obtain ⟨⟨h0, h1, h2, hts⟩, hframe⟩ := (s.ticked.accept (encode i)).admitRequest_frame (operationFor i)
    have error (hne : _ ≠ Fsm.idle) := (progress.flags hne).left
    exact ⟨rfl, progress.txReqQ ▸ hf ▸ txReq_iff hr, fun _ => ⟨h0, h1, h2, hts, hframe, error⟩, nofun, nofun⟩
  | txw =>
    rw [exec_writing i ⟨hr, hf⟩] at h
    cases h
    have progress := Block.progress_txStep (b := s.ticked) (by simp [hf]) s.pins.tx
    obtain ⟨⟨h0, h1, h2, hts⟩, hframe, hbuf, hlen, htimer⟩ := s.ticked.txStep_frame s.pins.tx
    exact ⟨rfl, progress.txReqQ ▸ hf ▸ txReq_iff hr, nofun, fun _ => ⟨progress.op, progress.arg, hframe, hbuf,
      hlen, h0, h1, h2, hts, htimer, progress.flags⟩, nofun⟩
  | rx =>
    obtain ⟨progress, frame⟩ := exec_rx_frame ⟨hr, hf⟩ h
    exact ⟨exec_cfg h, progress.txReqQ ▸ hf ▸ txReq_iff hr, nofun, nofun, fun _ => ⟨progress.op, progress.arg,
      frame.txFrame, frame.rxBuf, frame.rxLen, frame.timer, progress.flags, progress.sameResults, frame.ts⟩⟩
  | unused => rw [exec_unused i ⟨hr, hf⟩] at h; cases h

end Sys2Proof.Machine
end

section
/-! The read window, 42_transaction.md R166: a read ends, and one that meets nothing else ends by the timeout. -/

namespace Sys2Proof.Safety

open Sys2Proof.Machine

theorem op_le_of_admitted {op : BitVec 4} {a : Word} (h : specAdmit op a = .ok) : op.toNat ≤ 8 := by
  by_contra hn
  rw [specAdmit, if_pos (by omega)] at h
  cases h

/-- No state that meets the invariant stops with a fault, notes/assumptions/9.md. -/
theorem Invariant.not_stops {s : State} (hi : Invariant s) (f : Fault) : ¬ Stops s f := by
  intro h
  cases h with
  | errReserved he => exact he.not_ge hi.err
  | fsmUnused _ hf => exact hi.fsm hf
  | opReservedBusy _ hf ho =>
    have busy : s.blk.fsm ≠ .idle := by rcases hf with hf | hf <;> simp [hf]
    exact ho.not_gt (Nat.lt_succ_of_le (op_le_of_admitted (hi.admitted busy)))
  | timerBeyondWindow _ _ _ hw => exact hw.not_ge hi.timer

/-- From a state that meets the invariant a step is a reset or a cycle. -/
theorem Invariant.step_cases {s : State} (hi : Invariant s) :
    (s.pins.rst = true ∧ step s = .next s.resetCycle) ∨
    (s.pins.rst = false ∧ ∃ b, Cycle s b ∧ step s = .next (s.advance b)) := by
  rcases Machine.step_cases s with h | ⟨hr, -, h⟩ | ⟨-, f, hs, -⟩
  · exact .inl h
  · exact .inr ⟨hr, h⟩
  · exact absurd hs (hi.not_stops f)

/-- A step of a read ends it, or counts a cycle of the open window. -/
theorem Invariant.step_of_rx {s : State} (hi : Invariant s) (hf : s.blk.fsm = .rx) :
    ∃ t, step s = .next t ∧ (t.blk.fsm = .idle ∨
      (t.blk.fsm = .rx ∧ t.cfg = s.cfg ∧ s.blk.timer.toNat < s.cfg.timeoutCycles ∧
        t.blk.timer.toNat = s.blk.timer.toNat + 1)) := by
  rcases hi.step_cases with ⟨-, h⟩ | ⟨-, b, hc, h⟩
  · exact ⟨_, h, .inl rfl⟩
  · refine ⟨_, h, ?_⟩
    cases hc with
    | quiet hf' => cases hf.symm.trans hf'
    | reserved _ hf' => cases hf.symm.trans hf'
    | accepted _ hf' => cases hf.symm.trans hf'
    | writing _ hf' => cases hf.symm.trans hf'
    | timedOut _ _ _ _ => exact .inl rfl
    | reading i _ _ hw =>
      rcases s.ticked.rxOpen_ends_or_counts (operationFor i) s.pins with ⟨hend, -⟩ | ⟨hgo, htimer⟩
      · exact .inl hend
      · refine .inr ⟨hgo.trans hf, rfl, hw, ?_⟩
        rw [State.advance_blk, htimer]
        exact countCycle_timer_toNat hi.cfg hw

/-- Settles O55, by induction on what is left of the window. -/
theorem readEndsWithinWindow : Obligations.ReadEndsWithinWindow := by
  intro s hi hf
  induction hd : s.cfg.timeoutCycles - s.blk.timer.toNat generalizing s with
  | zero =>
    obtain ⟨t, h, hend | ⟨-, -, hw, -⟩⟩ := hi.step_of_rx hf
    · exact ⟨1, t, le_rfl, (runFor_next h).trans (runFor_zero t), hend⟩
    · omega
  | succ d ih =>
    obtain ⟨t, h, hend | ⟨hgo, hcfg, hw, htimer⟩⟩ := hi.step_of_rx hf
    · exact ⟨1, t, by omega, (runFor_next h).trans (runFor_zero t), hend⟩
    · obtain ⟨k, u, hk, hrun, hend⟩ := ih t (stepKeepsInvariant s t hi h) hgo (by rw [hcfg, htimer]; omega)
      exact ⟨k + 1, u, by omega, (runFor_next h).trans hrun, hend⟩

/-! No delimiter -/

/-- A drive with no reset, no read failure and no delimiter among its arrivals. -/
def NoDelimiter (d : Drive) : Prop := d.rst = false ∧ d.rxErr = false ∧ ∀ x ∈ d.arrive, x ≠ 0xAB

theorem mem_inbound_of_rx {s : State} {x : Byte} (h : s.pins.rx = some x) : x ∈ s.inbound := by
  rw [inbound_of_rx h]; exact List.mem_cons_self

theorem mem_inbound_of_mem_chanIn {s : State} {x : Byte} (h : x ∈ s.nextEnv.chanIn) : x ∈ s.inbound := by
  rw [State.nextEnv_chanIn] at h
  split at h
  · exact List.mem_of_mem_tail h
  · exact h

theorem inbound_ne_delimiter {s : State} (hq : ∀ x ∈ s.env.chanIn, x ≠ 0xAB) (hd : NoDelimiter s.drive) :
    ∀ x ∈ s.inbound, x ≠ 0xAB := by
  obtain ⟨-, -, harrive⟩ := hd
  intro x hx
  exact (List.mem_append.mp hx).elim (hq x) (harrive x)

theorem Invariant.exists_encode {s : State} (hi : Invariant s) (hf : s.blk.fsm ≠ .idle) :
    ∃ i, encode i = ⟨s.blk.op, s.blk.arg⟩ :=
  exists_encode_of_op_le (r := ⟨s.blk.op, s.blk.arg⟩) (op_le_of_admitted (hi.admitted hf))

/-- In an open window without delimiter or failure the read goes on. -/
theorem Invariant.step_reading {s : State} (hi : Invariant s) (hs : Reading s) (hx : s.pins.rx ≠ some delimiter) :
    ∃ b, step s = .next (s.advance b) ∧ b.fsm = .rx ∧ b.timer.toNat = s.blk.timer.toNat + 1 ∧
      b.val0 = s.blk.val0 := by
  obtain ⟨⟨hr, hf⟩, hw, he⟩ := hs
  obtain ⟨i, ho⟩ := hi.exists_encode (by simp [hf])
  refine ⟨_, (Cycle.reading i hf ho hw).step_eq hr hi.err, ?_⟩
  have count := countCycle_timer_toNat hi.cfg hw
  rcases s.ticked.rxOpen_cases (operationFor i) s.pins with ⟨h1, -⟩ | ⟨-, -, h⟩ | ⟨-, x, -, -, h⟩ | ⟨-, h1, -⟩
  · cases he.symm.trans h1
  · rw [h]; exact ⟨hf, count, rfl⟩
  · rw [h]; exact ⟨hf, count, rfl⟩
  · exact absurd h1 hx

theorem Invariant.step_timeout {s : State} (hi : Invariant s) (hs : InState s .rx)
    (hw : s.blk.timer.toNat = s.cfg.timeoutCycles) :
    step s = .next (s.advance (s.ticked.endOperation .timeoutError)) := by
  obtain ⟨hr, hf⟩ := hs
  obtain ⟨i, ho⟩ := hi.exists_encode (by simp [hf])
  exact (Cycle.timedOut i hf ho hw).step_eq hr hi.err

/-- Settles O56, by induction on what is left of the window: each cycle goes on (`Invariant.step_reading`), the last
times out. -/
theorem readWithoutDelimiterTimesOut : Obligations.ReadWithoutDelimiterTimesOut := by
  intro s hi hf hq hdrives
  induction hd : s.cfg.timeoutCycles - s.blk.timer.toNat generalizing s with
  | zero =>
    rw [hd] at hdrives
    obtain ⟨⟨hr, -⟩, -⟩ := nextDrives_head hdrives
    have hstep := hi.step_timeout ⟨hr, hf⟩ (by have := hi.timer; omega)
    exact ⟨⟨s, runFor_zero s, hf⟩, _, (runFor_next hstep).trans (runFor_zero _), rfl, rfl, rfl, rfl⟩
  | succ d ih =>
    rw [hd] at hdrives
    obtain ⟨hdrive, rest⟩ := nextDrives_head hdrives
    have ⟨hr, he, _⟩ := hdrive
    have inbound := inbound_ne_delimiter hq hdrive
    have reads : Reading s := ⟨⟨hr, hf⟩, by omega, he⟩
    obtain ⟨b, hstep, hgo, htimer, hval⟩ := hi.step_reading reads fun hx => inbound _ (mem_inbound_of_rx hx) rfl
    have left : (s.advance b).cfg.timeoutCycles - (s.advance b).blk.timer.toNat = d := by
      rw [State.advance_cfg, State.advance_blk, htimer]; omega
    obtain ⟨⟨t, ht, hrx⟩, u, hu, hend, herr, hdone, hkept⟩ := ih (s.advance b) (stepKeepsInvariant s _ hi hstep) hgo
      (fun x hx => inbound x (mem_inbound_of_mem_chanIn hx)) (left ▸ rest b) left
    exact ⟨⟨t, (runFor_next hstep).trans ht, hrx⟩, u, (runFor_next hstep).trans hu, hend, herr, hdone, hkept.trans hval⟩

end Sys2Proof.Safety
end

section
/-! The verdict on a valid frame is that of the table of 43_operations.md R191. -/

namespace Sys2Proof.Machine

open Sys2Proof.Safety

theorem littleEndian_eq_append (lo hi : Byte) : littleEndian lo hi = hi ++ lo := by
  apply BitVec.eq_of_toNat_eq
  have high : hi.toNat <<< 8 < 2 ^ 16 := by rw [Nat.shiftLeft_eq]; omega
  have h16 : hi.toNat < 2 ^ 16 := by omega
  have l16 : lo.toNat < 2 ^ 16 := by omega
  rw [littleEndian, BitVec.toNat_or, BitVec.toNat_shiftLeft, BitVec.toNat_setWidth, BitVec.toNat_setWidth,
    BitVec.toNat_append, Nat.mod_eq_of_lt h16, Nat.mod_eq_of_lt l16, Nat.mod_eq_of_lt high, Nat.lor_comm]

theorem zeroExtend_byte (x : Byte) : 0#8 ++ x = x.setWidth 16 := (BitVec.setWidth_eq_append (by decide)).symm

/-- The interpretation of an operation is the one R191 gives its request. -/
theorem specInterpret_encode (i : Instr) (buf : Capture) (t : Time) :
    specInterpret (encode i).op (encode i).arg buf t = some ((operationFor i).interpret buf t) := by
  have echo (a : Word) : (if buf[4] ≠ a.extractLsb' 0 8 then some (⟨.confirmationMismatch, none⟩ : Verdict)
      else some ⟨.ok, some ⟨0#8 ++ buf[4], 0, 0, none⟩⟩) = some (echoVerdict a buf) := by
    rw [← apply_ite some, zeroExtend_byte]
    rfl
  have firmware : Option.some (⟨.ok, some ⟨0#8 ++ buf[3], 0#8 ++ buf[4], 0#8 ++ buf[5], none⟩⟩ : Verdict) =
      some (firmwareVerdict buf) := by
    simp only [zeroExtend_byte, firmwareVerdict]
  have value : Option.some (⟨.ok, some ⟨0#8 ++ buf[4], 0, 0, none⟩⟩ : Verdict) = some (byteVerdict buf) := by
    simp only [zeroExtend_byte, byteVerdict]
  have counts : Option.some (⟨.ok, some ⟨buf[3] ++ buf[2], buf[5] ++ buf[4], 0, some t⟩⟩ : Verdict) =
      some (dataVerdict buf t) := by
    simp only [dataVerdict, decodeValues, littleEndian_eq_append]
  cases i with
  | getFirmware a => exact firmware
  | setWorkMode a => exact echo a
  | setReportingMode a => exact echo a
  | setWorkPeriod a => exact echo a
  | queryData a => exact counts
  | waitForData a => exact counts
  | _ => exact value

/-- Only a success has writes, 60_exceptions.md R252. -/
theorem operationFor_interpret_ok {i : Instr} {buf : Capture} {t : Time} {w : Writes}
    (h : ((operationFor i).interpret buf t).writes = some w) :
    (operationFor i).interpret buf t = ⟨.ok, some w⟩ := by
  have echo (a : Word) (h : (echoVerdict a buf).writes = some w) : echoVerdict a buf = ⟨.ok, some w⟩ := by
    unfold echoVerdict at h ⊢
    split at h <;> cases h
    next heq => rw [if_neg heq]; rfl
  cases i with
  | setWorkMode a => exact echo a h
  | setReportingMode a => exact echo a h
  | setWorkPeriod a => exact echo a h
  | _ => cases h; rfl

end Sys2Proof.Machine
end

section
/-! Runs of a known length: how they are put together and taken apart. -/

namespace Sys2Proof.Machine

open Sys2Proof.Safety

theorem runFor_succ_inv {n : Nat} {s t : State} (h : runFor (n + 1) s = .next t) :
    ∃ u, step s = .next u ∧ runFor n u = .next t := by
  cases hs : step s with
  | next u => exact ⟨u, rfl, (runFor_next hs).symm.trans h⟩
  | fault f => simp only [runFor, Host.Core.run, core, hs] at h; cases h
  | refused r => exact absurd hs (step_ne_refused s r)

theorem runFor_add {m n : Nat} {s t : State} (h : runFor m s = .next t) : runFor (m + n) s = runFor n t := by
  induction m generalizing s with
  | zero => cases h; rw [Nat.zero_add]
  | succ m ih =>
    obtain ⟨u, hu, hrun⟩ := runFor_succ_inv h
    rw [Nat.succ_add, runFor_next hu, ih hrun]

theorem runFor_one {s t : State} (h : step s = .next t) : runFor 1 s = .next t :=
  (runFor_next h).trans (runFor_zero t)

/-- A run along which `P` leads from each state to the next. -/
theorem exists_run_of_steps {P : Nat → State → Prop} {s : State} (h0 : P 0 s) (N : Nat)
    (next : ∀ n t, n < N → P n t → ∃ u, step t = .next u ∧ P (n + 1) u) :
    ∃ t, runFor N s = .next t ∧ P N t := by
  induction N with
  | zero => exact ⟨s, runFor_zero s, h0⟩
  | succ N ih =>
    obtain ⟨t, hrun, ht⟩ := ih fun n t hn => next n t (Nat.lt_succ_of_lt hn)
    obtain ⟨u, hstep, hu⟩ := next N t (Nat.lt_succ_self N) ht
    exact ⟨u, (runFor_add hrun).trans (runFor_one hstep), hu⟩

/-! Schedules -/

theorem nextDrives_imp {s : State} {n : Nat} {p q : Drive → Prop} (h : NextDrives s n p) (hpq : ∀ d, p d → q d) :
    NextDrives s n q := by
  obtain ⟨long, each⟩ := h
  exact ⟨long, fun d hd => hpq d (each d hd)⟩

theorem drive_of_drives {s : State} {ds : List Drive} {n : Nat} {d : Drive} (h : s.env.drives = ds.drop n)
    (hd : ds[n]? = some d) : s.drive = d := by
  have head : s.env.drives.head? = some d := by rw [h, List.head?_drop, hd]
  obtain ⟨l, hl⟩ := List.head?_eq_some_iff.mp head
  rw [State.drive, hl]

theorem drives_drop_succ {s : State} {b : Block} {ds : List Drive} {n : Nat} (h : s.env.drives = ds.drop n) :
    (s.advance b).env.drives = ds.drop (n + 1) := by
  rw [State.advance_env, State.nextEnv_drives, h, List.tail_drop]

/-! A channel that has what it needs -/

theorem inbound_of_no_arrival {s : State} (h : s.drive.arrive = []) : s.inbound = s.env.chanIn := by
  rw [State.inbound, h, List.append_nil]

theorem pins_rx_of_offer {s : State} {x : Byte} {l : List Byte} (ho : s.drive.offer = true) (h : s.inbound = x :: l) :
    s.pins.rx = some x := by
  simp [State.pins, ho, h]

/-- A write that begins can be answered at once, 42_transaction.md R156. -/
theorem pins_tx_of_writeBegins {s : State} (h : s.writeBegins = true) : s.pins.tx = s.drive.answer := by
  simp [State.pins, State.answerable, h]

theorem writeBegins_txw {s : State} (hs : InState s .txw) (hq : s.blk.txReqQ = false) : s.writeBegins = true := by
  obtain ⟨hr, hf⟩ := hs
  rw [State.writeBegins, hq, Bool.not_false, Bool.and_true]
  exact (txReq_iff hr).mpr hf

end Sys2Proof.Machine
end

section
/-! The shortest transaction, 70_reset_and_hazards.md R294: one accept cycle, one cycle of the write, ten of the read. -/

namespace Sys2Proof.Machine

open Sys2Proof.Safety

/-! Ten cycles of the read -/

/-- In this cycle the channel offers the oldest byte it held before, and nothing disturbs the read. -/
def OffersByte (d : Drive) : Prop := d.rst = false ∧ d.arrive = [] ∧ d.offer = true ∧ d.rxErr = false

/-- The read of `i` that began in `s` has in `t` captured the first `n` bytes of `f`; `rest` is behind `f` in the
channel. -/
structure FrameRead (i : Instr) (f : Capture) (rest : List Byte) (s : State) (n : Nat) (t : State) : Prop where
  cfg : t.cfg = s.cfg
  fsm : t.blk.fsm = .rx
  op : encode i = ⟨t.blk.op, t.blk.arg⟩
  err : t.blk.err.toNat ≤ 8
  timer : t.blk.timer.toNat = n
  rxLen : t.blk.rxLen.toNat = n
  rxBuf : ∀ j (h : j < 10), j < n → t.blk.rxBuf[j] = f[j]
  results : s.blk.SameResults t.blk
  chanIn : t.env.chanIn = f.toList.drop n ++ rest
  writes : t.env.writes = s.env.writes
  drives : t.env.drives = s.env.drives.drop n
  offers : NextDrives t (10 - n) OffersByte

section Read

variable {i : Instr} {f : Capture} {rest : List Byte} {s t : State} {n : Nat}

theorem FrameRead.head (h : FrameRead i f rest s n t) (hn : n < 10) :
    OffersByte t.drive ∧ ∀ b, NextDrives (t.advance b) (10 - (n + 1)) OffersByte := by
  have left : 10 - n = 10 - (n + 1) + 1 := by omega
  exact nextDrives_head (left ▸ h.offers)

/-- The next byte of the frame is on offer. -/
theorem FrameRead.offered (h : FrameRead i f rest s n t) (hn : n < 10) (hw : 10 ≤ s.cfg.timeoutCycles) :
    Reading t ∧ t.pins.rx = some f[n] ∧ t.inbound = f[n] :: (f.toList.drop (n + 1) ++ rest) := by
  obtain ⟨⟨hr, harrive, hoffer, herr⟩, -⟩ := h.head hn
  have bytes : f.toList.drop n = f[n] :: f.toList.drop (n + 1) := by
    rw [List.drop_eq_getElem_cons (by simp [hn]), Vector.getElem_toList]
  have queue : t.inbound = f[n] :: (f.toList.drop (n + 1) ++ rest) := by
    rw [inbound_of_no_arrival harrive, h.chanIn, bytes, List.cons_append]
  have inside : t.blk.timer.toNat < t.cfg.timeoutCycles := by rw [h.timer, h.cfg]; omega
  exact ⟨⟨⟨hr, h.fsm⟩, inside, herr⟩, pins_rx_of_offer hoffer queue, queue⟩

theorem FrameRead.step_eq (h : FrameRead i f rest s n t) (hr : t.pins.rst = false) : step t = exec i t := by
  obtain ⟨-, busy⟩ := stepRunsDecodedOperation t i hr h.err
  exact busy (.inr h.fsm) h.op

/-- A cycle of the read takes the next byte of the frame and writes nothing. -/
theorem FrameRead.env_next {u : State} (h : FrameRead i f rest s n t) (hn : n < 10) (hw : 10 ≤ s.cfg.timeoutCycles)
    (hstep : step t = .next u) :
    u.env.chanIn = f.toList.drop (n + 1) ++ rest ∧ u.env.writes = s.env.writes := by
  obtain ⟨reads, hx, queue⟩ := h.offered hn hw
  have taken : t.byteTaken = true := by rw [byteTaken_reading reads, hx]; rfl
  have consumed := inbound_of_taken hstep taken hx
  rw [queue] at consumed
  obtain ⟨-, left⟩ := List.cons.inj consumed
  refine ⟨left.symm, ?_⟩
  rw [step_writes hstep, writeBegins_of_ne_txw (by simp [h.fsm]), ← h.writes]
  rfl

/-- A byte other than the delimiter is captured, R162. -/
theorem FrameRead.next (h : FrameRead i f rest s n t) (hn : n < 9) (hw : 10 ≤ s.cfg.timeoutCycles)
    (hne : f[n] ≠ 0xAB) : ∃ u, step t = .next u ∧ FrameRead i f rest s (n + 1) u := by
  obtain ⟨reads, hx, -⟩ := h.offered (by omega) hw
  have ⟨⟨hr, _⟩, _, _⟩ := reads
  have hstep := (h.step_eq hr).trans (readContinues i t f[n] reads hx hne)
  obtain ⟨-, offers⟩ := h.head (by omega)
  obtain ⟨chanIn, writes⟩ := h.env_next (by omega) hw hstep
  have timer : (t.blk.timer + 1).toNat = n + 1 := by
    rw [BitVec.toNat_add, h.timer]
    exact Nat.mod_eq_of_lt (by simp; omega)
  have rxLen : (BitVec.ofNat 8 (min (t.blk.rxLen.toNat + 1) 255)).toNat = n + 1 := by
    rw [BitVec.toNat_ofNat, h.rxLen]
    omega
  have rxBuf (j : Nat) (hj : j < 10) (hlt : j < n + 1) :
      (t.blk.rxBuf.setIfInBounds t.blk.rxLen.toNat f[n])[j] = f[j] := by
    rw [Vector.getElem_setIfInBounds, h.rxLen]
    split_ifs with heq
    · subst heq; rfl
    · exact h.rxBuf j hj (by omega)
  exact ⟨_, hstep, h.cfg, h.fsm, h.op, h.err, timer, rxLen, rxBuf, h.results, chanIn, writes,
    drives_drop_succ h.drives, offers _⟩

/-- The delimiter as the tenth byte makes the frame whole. -/
theorem FrameRead.capture_tail (h : FrameRead i f rest s 9 t) (hd : f[9] = delimiter) :
    (t.blk.capture delimiter).rxBuf = f ∧ (t.blk.capture delimiter).rxLen = 10 := by
  refine ⟨Vector.ext fun j hj => ?_, Block.capture_rxLen_eq_ten_iff.mpr (BitVec.eq_of_toNat_eq h.rxLen)⟩
  rw [Block.capture_rxBuf_getElem _ _ hj, h.rxLen]
  split_ifs with heq
  · subst heq; exact hd.symm
  · exact h.rxBuf j hj (by omega)

theorem validate_of_checksum {buf : Capture}
    (h : checksum [buf[2], buf[3], buf[4], buf[5], buf[6], buf[7]] = buf[8]) : validate buf 10 = .ok := by
  rw [validate_ten, slice_capture, if_neg (not_not.mpr h)]

/-- The tail of a valid frame completes the operation with the interpretation of the frame, 42_transaction.md R164. -/
theorem FrameRead.last (h : FrameRead i f rest s 9 t) (hw : 10 ≤ s.cfg.timeoutCycles) (hd : f[9] = 0xAB)
    (hsum : checksum [f[2], f[3], f[4], f[5], f[6], f[7]] = f[8]) :
    ∃ u b, step t = .next u ∧ u.blk = b.complete ((operationFor i).interpret f t.pins.timeIn) ∧ b.rxBuf = f ∧
      b.rxLen = 10 ∧ s.blk.SameResults b ∧ u.env.writes = s.env.writes ∧ u.env.chanIn = rest := by
  obtain ⟨reads, hx, -⟩ := h.offered (by omega) hw
  have ⟨⟨hr, hf⟩, hopen, herr⟩ := reads
  have tail : f[9] = delimiter := hd
  obtain ⟨hbuf, hlen⟩ := h.capture_tail tail
  have ticked_buf : (t.ticked.capture delimiter).rxBuf = f := hbuf
  have ticked_len : (t.ticked.capture delimiter).rxLen = 10 := hlen
  have ends : t.ticked.rxOpen (operationFor i) t.pins =
      (t.ticked.capture delimiter).complete ((operationFor i).interpret f t.pins.timeIn) := by
    rw [Block.rxOpen_of_byte herr hx, Block.takeByte, if_pos tail, tail, Block.finish_eq, ticked_buf, ticked_len,
      if_pos (validate_of_checksum hsum)]
  have hstep := (h.step_eq hr).trans (exec_window_open i ⟨hr, hf⟩ hopen)
  obtain ⟨chanIn, writes⟩ := h.env_next (by omega) hw hstep
  have whole : f.toList.drop 10 = [] := List.drop_eq_nil_of_le (by simp)
  exact ⟨_, t.ticked.capture delimiter, hstep, ends, hbuf, hlen, h.results, writes, by rw [chanIn, whole]; rfl⟩

/-- Ten cycles read a valid frame that stands in the channel, and complete with its interpretation. -/
theorem exists_run_of_frame {last : Drive} (h : FrameRead i f rest s 0 s) (hw : 10 ≤ s.cfg.timeoutCycles)
    (hbytes : ∀ j (h : j < 9), f[j] ≠ 0xAB) (hd : f[9] = 0xAB)
    (hsum : checksum [f[2], f[3], f[4], f[5], f[6], f[7]] = f[8]) (hlast : s.env.drives[9]? = some last) :
    ∃ t b, runFor 10 s = .next t ∧ t.blk = b.complete ((operationFor i).interpret f last.timeIn) ∧ b.rxBuf = f ∧
      b.rxLen = 10 ∧ s.blk.SameResults b ∧ t.env.writes = s.env.writes ∧ t.env.chanIn = rest := by
  obtain ⟨t, hrun, ht⟩ := exists_run_of_steps (P := FrameRead i f rest s) h 9 fun n _ hn ht =>
    ht.next hn hw (hbytes n hn)
  obtain ⟨u, b, hstep, hblk, done⟩ := ht.last hw hd hsum
  have time : t.pins.timeIn = last.timeIn := congrArg Drive.timeIn (drive_of_drives ht.drives hlast)
  exact ⟨u, b, (runFor_add hrun).trans (runFor_one hstep), time ▸ hblk, done⟩

end Read

/-! The accept cycle and the write -/

/-- In this cycle the channel answers a write with the whole frame sent, and offers the oldest byte it held before. -/
def AnswersAndOffers (d : Drive) : Prop :=
  d.rst = false ∧ d.answer = some ⟨false, 19⟩ ∧ d.arrive = [] ∧ d.offer = true ∧ d.rxErr = false

theorem AnswersAndOffers.offersByte {d : Drive} (h : AnswersAndOffers d) : OffersByte d := by
  obtain ⟨hr, -, rest⟩ := h
  exact ⟨hr, rest⟩

theorem chanIn_kept {s t : State} (h : step s = .next t) (ha : s.drive.arrive = []) (hb : s.byteTaken = false) :
    t.env.chanIn = s.env.chanIn :=
  (chanIn_of_byteTaken_false h hb).trans (inbound_of_no_arrival ha)

/-- The registers in the first cycle of a write. -/
def writeStarted (b : Block) (r : Request) (body : Body) : Block :=
  { accepted b r.op r.arg with fsm := .txw, txFrame := encodeFrame body }

theorem step_accept {i : Instr} {body : Body} {s : State} (hi : InState s .idle) (he : s.blk.err.toNat ≤ 8)
    (hq : s.pins.req = some (encode i)) (ha : specAdmit (encode i).op (encode i).arg = .ok)
    (hb : specTemplate (encode i).op (encode i).arg = some body) :
    step s = .next (s.advance (writeStarted s.blk (encode i) body)) := by
  have ⟨hr, hf⟩ := hi
  obtain ⟨idle, -⟩ := stepRunsDecodedOperation s i hr he
  rw [idle hf hq, admittedRequestStarts i s hi ha, hb]
  rfl

/-- A write that is answered at once with 19 bytes becomes a read in the next cycle, 42_transaction.md R157. -/
theorem step_answered_at_once {i : Instr} {s : State} (hs : InState s .txw) (he : s.blk.err.toNat ≤ 8)
    (ho : encode i = ⟨s.blk.op, s.blk.arg⟩) (hq : s.blk.txReqQ = false) (ha : s.drive.answer = some ⟨false, 19⟩) :
    step s = .next (s.advance { s.blk with fsm := .rx, timer := 0, txReqQ := true, pulse := false }) := by
  have ⟨hr, hf⟩ := hs
  have answer : s.pins.tx = some ⟨false, 19⟩ := (pins_tx_of_writeBegins (writeBegins_txw hs hq)).trans ha
  obtain ⟨-, busy⟩ := stepRunsDecodedOperation s i hr he
  obtain ⟨-, result⟩ := writeAnswerResult i s hs
  rw [busy (.inl hf) ho, result, answer]
  rfl

/-- Two cycles after its accept the operation has sent its frame and begins to read. -/
theorem exists_run_to_read {i : Instr} {body : Body} {s : State} {f : Capture} {rest : List Byte}
    (hf : s.blk.fsm = .idle) (he : s.blk.err.toNat ≤ 8) (hp : s.cfg.rxIdlePolicy = .hold)
    (ha : specAdmit (encode i).op (encode i).arg = .ok) (hb : specTemplate (encode i).op (encode i).arg = some body)
    (hchan : s.env.chanIn = f.toList ++ rest) (hd : NextDrives s 12 AnswersAndOffers)
    (hq : s.pins.req = some (encode i)) :
    ∃ t, runFor 2 s = .next t ∧ FrameRead i f rest t 0 t ∧ t.cfg = s.cfg ∧ s.blk.SameResults t.blk ∧
      t.env.writes = s.env.writes ++ [encodeFrame body] ∧ t.env.drives = s.env.drives.drop 2 := by
  obtain ⟨⟨hr, -, harrive, -⟩, rest1⟩ := nextDrives_head hd
  have accept := step_accept ⟨hr, hf⟩ he hq ha hb
  set s1 := s.advance (writeStarted s.blk (encode i) body)
  obtain ⟨⟨hr1, hanswer1, harrive1, -⟩, rest2⟩ := nextDrives_head (rest1 (writeStarted s.blk (encode i) body))
  have write := step_answered_at_once (s := s1) ⟨hr1, rfl⟩ he rfl rfl hanswer1
  have chan1 : s1.env.chanIn = s.env.chanIn := chanIn_kept accept harrive (byteTaken_idle_hold hf hp)
  have chan2 := chanIn_kept write harrive1 (byteTaken_txw rfl)
  refine ⟨_, (runFor_next accept).trans (runFor_one write), ?_, rfl, ⟨rfl, rfl, rfl, rfl⟩, ?_, ?_⟩
  · exact ⟨rfl, rfl, rfl, he, rfl, rfl, nofun, ⟨rfl, rfl, rfl, rfl⟩, chan2.trans (chan1.trans hchan), rfl, rfl,
      nextDrives_imp (rest2 _) fun _ => AnswersAndOffers.offersByte⟩
  · rw [step_writes write, writeBegins_txw ⟨hr1, rfl⟩ rfl, if_pos rfl, step_writes accept,
      writeBegins_of_ne_txw (by simp [hf])]
    rfl
  · exact drives_drop_succ (n := 1) (drives_drop_succ (n := 0) rfl)

/-! The results -/

/-- What `Complete` leaves in the result registers, for a verdict that has writes only on a success, 60_exceptions.md
R252. -/
theorem Block.complete_results (b : Block) {v : Verdict} (hv : ∀ w, v.writes = some w → v = ⟨.ok, some w⟩) :
    (∀ w, v.writes = some w → (b.complete v).val0 = w.val0 ∧ (b.complete v).val1 = w.val1 ∧
      (b.complete v).val2 = w.val2 ∧ (b.complete v).ts = w.ts.getD b.ts) ∧
    (v.writes = none → b.SameResults (b.complete v)) := by
  refine ⟨fun w hw => ?_, fun hw => ?_⟩
  · rw [hv w hw]; exact ⟨rfl, rfl, rfl, rfl⟩
  · rcases b.complete_cases v with ⟨w, rfl, -⟩ | h
    · cases hw
    · rw [h]; exact ⟨rfl, rfl, rfl, rfl⟩

theorem Block.SameResults.trans {b c d : Block} (h : b.SameResults c) (h' : c.SameResults d) : b.SameResults d := by
  obtain ⟨h0, h1, h2, hts⟩ := h
  obtain ⟨h0', h1', h2', hts'⟩ := h'
  exact ⟨h0'.trans h0, h1'.trans h1, h2'.trans h2, hts'.trans hts⟩

/-! No success sooner -/

/-- No success is shown, and fewer than `n` bytes have been captured by a read in progress. -/
structure NoSuccessYet (n : Nat) (s : State) : Prop where
  noSuccess : ¬(s.blk.done = true ∧ s.blk.err = 0)
  written : s.blk.fsm = .txw → s.blk.rxLen = 0
  captured : s.blk.fsm = .rx → s.blk.rxLen.toNat < n

/-- A cycle keeps the length of the capture, clears it in an accept, or captures one byte in `RX`. -/
theorem Cycle.rxLen_cases {s : State} {b : Block} (h : Cycle s b) :
    b.fsm = .idle ∨ b.rxLen = 0 ∨ (s.blk.fsm = .txw ∧ b.rxLen = s.blk.rxLen) ∨
    (s.blk.fsm = .rx ∧ b.fsm = .rx ∧ b.rxLen.toNat ≤ s.blk.rxLen.toNat + 1) := by
  cases h with
  | quiet hf hq => exact .inl hf
  | reserved r hf hq ho => exact .inl rfl
  | timedOut i hf ho hw => exact .inl rfl
  | accepted i hf hq => exact .inr (.inl (Block.admitRequest_rxLen _ _))
  | writing i hf ho =>
    obtain ⟨-, -, -, hlen, -⟩ := s.ticked.txStep_frame s.pins.tx
    exact .inr (.inr (.inl ⟨hf, hlen⟩))
  | reading i hf ho hw =>
    rcases s.ticked.rxOpen_cases (operationFor i) s.pins with ⟨-, h⟩ | ⟨-, -, h⟩ | ⟨-, x, -, -, h⟩ | ⟨-, -, h⟩ <;> rw [h]
    · exact .inl rfl
    · exact .inr (.inr (.inr ⟨hf, hf, Nat.le_succ _⟩))
    · refine .inr (.inr (.inr ⟨hf, hf, ?_⟩))
      rw [Block.countCycle_rxLen, Block.capture_rxLen_toNat]
      exact Nat.min_le_left _ _
    · obtain ⟨v, hv⟩ := (s.ticked.capture delimiter).finish_eq_complete (operationFor i) s.pins.timeIn
      exact .inl (by rw [hv]; exact Block.complete_fsm _ _)

/-- A success needs nine bytes already captured (`step_success_cases`), and a cycle captures at most one. -/
theorem NoSuccessYet.step {n : Nat} {s t : State} (h : NoSuccessYet n s) (hn : n ≤ 9) (hstep : step s = .next t) :
    NoSuccessYet (n + 1) t := by
  have noSuccess : ¬(t.blk.done = true ∧ t.blk.err = 0) := by
    rintro ⟨hd, he⟩
    rcases step_success_cases hstep hd he with hs | ⟨hf, hl⟩
    · exact h.noSuccess hs
    · have := h.captured hf
      rw [hl] at this
      exact absurd this (by simp; omega)
  have capture (busy : t.blk.fsm ≠ .idle) : (t.blk.fsm = .txw → t.blk.rxLen = 0) ∧ t.blk.rxLen.toNat < n + 1 := by
    cases hr : s.pins.rst with
    | true => rw [step_reset hr] at hstep; cases hstep; exact absurd rfl busy
    | false =>
      obtain ⟨-, hc⟩ := cycle_of_step hr hstep
      rcases hc.rxLen_cases with hi | hl | ⟨hf, hl⟩ | ⟨hf, hgo, hl⟩
      · exact absurd hi busy
      · exact ⟨fun _ => hl, by rw [hl]; exact Nat.succ_pos n⟩
      · rw [hl, h.written hf]; exact ⟨fun _ => rfl, Nat.succ_pos n⟩
      · exact ⟨fun ht => (nomatch hgo.symm.trans ht), by have := h.captured hf; omega⟩
  refine ⟨noSuccess, fun hf => ?_, fun hf => ?_⟩
  · obtain ⟨written, -⟩ := capture (by simp [hf])
    exact written hf
  · obtain ⟨-, captured⟩ := capture (by simp [hf])
    exact captured

theorem NoSuccessYet.run {k n : Nat} {s t : State} (h : NoSuccessYet n s) (hk : n + k ≤ 10)
    (hrun : runFor k s = .next t) : NoSuccessYet (n + k) t := by
  induction k generalizing n s with
  | zero => cases hrun; exact h
  | succ k ih =>
    obtain ⟨u, hu, hrun⟩ := runFor_succ_inv hrun
    rw [← Nat.succ_add_eq_add_succ]
    exact ih (h.step (by omega) hu) (by omega) hrun

/-- Settles O57: the run by its parts, accept and write (`exists_run_to_read`) and read (`exists_run_of_frame`);
no success in 11 cycles, since the read begins after two and a success needs ten bytes (`NoSuccessYet`). -/
theorem shortestTransaction : Obligations.ShortestTransaction := by
  refine ⟨?_, ?_⟩
  · intro i body s f rest v last hf he hw _ hp ha hb hbytes hd hsum hchan hdrives hq hlast hv
    rw [specInterpret_encode] at hv
    cases hv
    obtain ⟨t, hrun, hread, hcfg, hsame, hwrites, hsched⟩ := exists_run_to_read hf he hp ha hb hchan hdrives hq
    have last9 : t.env.drives[9]? = some last := by rw [hsched, List.getElem?_drop, hlast]
    obtain ⟨u, b, hrun', hblk, hbuf, hlen, hsame', hwrites', hrest⟩ :=
      exists_run_of_frame hread (hcfg ▸ hw) hbytes hd hsum last9
    obtain ⟨success, failure⟩ := b.complete_results fun w hw =>
      operationFor_interpret_ok (i := i) (buf := f) (t := last.timeIn) hw
    have kept : s.blk.SameResults b := hsame.trans hsame'
    have ⟨_, _, _, hts⟩ := kept
    refine ⟨u, (runFor_add hrun).trans hrun', ?_⟩
    rw [hblk, hwrites', hwrites, ← hts]
    exact ⟨b.complete_fsm _, b.complete_done _, b.complete_pulse _, b.complete_err _, (b.complete_rxBuf _).trans hbuf,
      (b.complete_rxLen _).trans hlen, rfl, hrest, success, fun hw => hts ▸ kept.trans (failure hw)⟩
  · intro i k s t hi hq ha ho hk1 hk hrun hdone herr
    obtain ⟨k, rfl⟩ := Nat.exists_eq_add_of_le' hk1
    obtain ⟨u, hu, hrun⟩ := runFor_succ_inv hrun
    have ⟨hr, hf⟩ := hi
    obtain ⟨he, -⟩ := cycle_of_step hr hu
    have hb : specTemplate (encode i).op (encode i).arg = some i.commandBody := by
      rw [← operationFor_body, operationFor_body_eq, if_neg ho]
    cases hu.symm.trans (step_accept hi he hq ha hb)
    have begun : NoSuccessYet 0 (s.advance (writeStarted s.blk (encode i) i.commandBody)) :=
      ⟨nofun, fun _ => rfl, nofun⟩
    exact (begun.run (by omega) hrun).noSuccess ⟨hdone, herr⟩

end Sys2Proof.Machine
end

section
/-! The accept cycle by the admission of the argument, 43_operations.md R190. -/

namespace Sys2Proof.Machine

open Sys2Proof.Safety

theorem Block.admitRequest_of_refused (b : Block) {o : Operation} (h : o.admission ≠ .ok) :
    b.admitRequest o = b.endOperation o.admission := by
  rcases b.admitRequest_cases o with ⟨ok, -⟩ | ⟨ok, -⟩ | ⟨-, ends⟩
  · exact absurd ok h
  · exact absurd ok h
  · exact ends

theorem Block.admitRequest_of_sent (b : Block) {o : Operation} {y : Body} (ha : o.admission = .ok)
    (hb : o.body = some y) : b.admitRequest o = b.startWrite y := by
  simp only [Block.admitRequest, ha, hb]

/-- Settles O7: a refused admission is a completion, and an idle block has neither `tx_req` nor, under `Hold`,
`rx_ready`. -/
theorem refusedArgumentCompletesAtOnce : Obligations.RefusedArgumentCompletesAtOnce := by
  intro i s hi ha
  have ⟨_, hf⟩ := hi
  refine ⟨?_, writeBegins_of_ne_txw (by simp [hf]), byteTaken_idle_hold hf⟩
  rw [← operationFor_admission] at ha ⊢
  rw [exec_idle hi, accept_ticked_idle hf, Block.admitRequest_of_refused _ ha]
  rfl

/-! The work period, R198 -/

/-- `ARG[7:0]` is the signed value modulo 256, R86. -/
theorem argByte_eq_ofInt (a : Word) : argByte a = BitVec.ofInt 8 a.toInt := by
  apply BitVec.eq_of_toInt_eq
  rw [argByte, BitVec.toInt_setWidth, BitVec.toInt_ofInt, BitVec.toInt_eq_toNat_bmod,
    Int.bmod_bmod_of_dvd (by decide)]

/-- Settles O8: the range is the condition of the admission, and byte 4 of the frame is `ARG[7:0]`. -/
theorem workPeriodRange : Obligations.WorkPeriodRange := by
  intro a s hi
  have ⟨_, hf⟩ := hi
  refine ⟨_, exec_idle hi, fun h => ?_, fun h => ?_⟩
  · have admitted : (operationFor (.setWorkPeriod a)).admission = .ok := if_pos h
    have payload : (encodeFrame (writeBody classWorkPeriod a))[4] = argByte a :=
      congrArg (·[4]) (encodeFrame_commandBody _ _ _)
    rw [State.advance_blk, Block.admitRequest_of_sent _ admitted rfl]
    exact ⟨rfl, rfl, payload.trans (argByte_eq_ofInt a)⟩
  · have refused : (operationFor (.setWorkPeriod a)).admission = .rangeError := if_neg h
    rw [State.advance_blk, Block.admitRequest_of_refused _ (by rw [refused]; decide), refused, State.advance_env,
      State.nextEnv_writes, writeBegins_of_ne_txw (by simp [hf])]
    exact ⟨rfl, rfl, rfl, rfl, rfl⟩

end Sys2Proof.Machine
end

section
/-! The end of a valid frame, 43_operations.md R191 to R201: the operation completes with its interpretation. -/

namespace Sys2Proof.Machine

open Sys2Proof.Safety

/-! The completion, whatever the operation -/

/-- The registers when a valid frame has ended the operation with the verdict `v`, R191. -/
def interpreted (b : Block) (v : Verdict) : Block :=
  match v.writes with
  | some w =>
    { frameEnded b v.code.bits with val0 := w.val0, val1 := w.val1, val2 := w.val2, ts := w.ts.getD b.ts }
  | none => frameEnded b v.code.bits

/-- No operation reads the tail of the frame. -/
theorem operationFor_interpret_set_tail (i : Instr) (buf : Capture) (x : Byte) (t : Time) :
    (operationFor i).interpret (buf.set 9 x) t = (operationFor i).interpret buf t := by
  have value : byteVerdict (buf.set 9 x) = byteVerdict buf := by simp [byteVerdict]
  have echo (a : Word) : echoVerdict a (buf.set 9 x) = echoVerdict a buf := by simp [echoVerdict, value]
  have counts : dataVerdict (buf.set 9 x) t = dataVerdict buf t := by simp [dataVerdict]
  have firmware : firmwareVerdict (buf.set 9 x) = firmwareVerdict buf := by simp [firmwareVerdict]
  cases i with
  | getFirmware a => exact firmware
  | setWorkMode a => exact echo a
  | setReportingMode a => exact echo a
  | setWorkPeriod a => exact echo a
  | queryData a => exact counts
  | waitForData a => exact counts
  | _ => exact value

theorem validate_set_tail {buf : Capture} (x : Byte)
    (h : checksum [buf[2], buf[3], buf[4], buf[5], buf[6], buf[7]] = buf[8]) : validate (buf.set 9 x) 10 = .ok :=
  validate_of_checksum (by simpa using h)

/-- `Complete` performs the writes of a verdict, or, where there are none, only signals its code, 60_exceptions.md
R252. -/
theorem complete_eq_interpreted (i : Instr) (b : Block) (buf : Capture) (t : Time) :
    Block.complete { b with rxBuf := b.rxBuf.set 9 delimiter, rxLen := 10, txReqQ := false, pulse := false }
        ((operationFor i).interpret buf t) =
      interpreted b ((operationFor i).interpret buf t) := by
  cases hw : ((operationFor i).interpret buf t).writes with
  | some w => rw [operationFor_interpret_ok hw]; rfl
  | none =>
    generalize (operationFor i).interpret buf t = v at hw
    obtain ⟨c, w⟩ := v
    cases hw
    rw [Block.complete_none]
    rfl

/-- The delimiter that makes the frame whole completes the operation with its interpretation, 42_transaction.md R162
and R164. -/
theorem exec_valid_frame (i : Instr) {s : State} (hs : ValidFrameEnds s) :
    exec i s = .next (s.advance (interpreted s.blk ((operationFor i).interpret s.blk.rxBuf s.pins.timeIn))) := by
  obtain ⟨⟨hi, hw, he⟩, hx, hl, hsum⟩ := hs
  have ⟨_, hf⟩ := hi
  have whole : s.ticked.capture delimiter =
      { s.blk with rxBuf := s.blk.rxBuf.set 9 delimiter, rxLen := 10, txReqQ := false, pulse := false } := by
    rw [State.ticked_of_rx hf]
    exact Block.capture_tenth (b := { s.blk with txReqQ := false, pulse := false }) hl delimiter
  have ends : s.ticked.takeByte (operationFor i) s.pins.timeIn delimiter =
      (s.ticked.capture delimiter).complete ((operationFor i).interpret s.blk.rxBuf s.pins.timeIn) := by
    rw [Block.takeByte, if_pos rfl, Block.finish_eq, whole, if_pos (validate_set_tail delimiter hsum),
      operationFor_interpret_set_tail]
  rw [exec_window_open i hi hw, Block.rxOpen_of_byte he hx, ← complete_eq_interpreted, ← whole, ← ends]
  rfl

/-- Settles O16: the interpretation of the operation is the table's (`specInterpret_encode`). -/
theorem interpretationFollowsTable : Obligations.InterpretationFollowsTable := fun i _ hs =>
  ⟨_, specInterpret_encode i _ _, exec_valid_frame i hs⟩

/-! Each operation -/

/-- Settles O11: the verdict of `GET_FIRMWARE` writes bytes 3, 4 and 5. -/
theorem firmwareResult : Obligations.FirmwareResult := fun a _ hs =>
  exec_valid_frame (.getFirmware a) hs

theorem interpret_get : ∀ op ∈ [Instr.getWorkMode, Instr.getReportingMode, Instr.getWorkPeriod], ∀ (a : Word)
    (buf : Capture) (t : Time), (operationFor (op a)).interpret buf t = byteVerdict buf := by
  simp [operationFor, getWorkModeOp, getReportingModeOp, getWorkPeriodOp]

/-- Settles O12: the three operations share `byteVerdict`. -/
theorem getByteResult : Obligations.GetByteResult := by
  intro op hop a s hs
  rw [exec_valid_frame (op a) hs, interpret_get op hop]
  rfl

theorem interpret_set : ∀ op ∈ [Instr.setWorkMode, Instr.setReportingMode, Instr.setWorkPeriod], ∀ (a : Word)
    (buf : Capture) (t : Time), (operationFor (op a)).interpret buf t = echoVerdict a buf := by
  simp [operationFor, setWorkModeOp, setReportingModeOp, setWorkPeriodOp]

/-- Settles O13: with the echo in byte 4 the verdict of a set operation is that of a get operation. -/
theorem setEchoResult : Obligations.SetEchoResult := by
  intro op hop a s hs hecho
  have verdict : echoVerdict a s.blk.rxBuf = byteVerdict s.blk.rxBuf := if_neg (not_not.mpr hecho)
  rw [exec_valid_frame (op a) hs, interpret_set op hop, verdict]
  rfl

/-- Settles O14: without the echo in byte 4 the verdict is code 5 and has no writes. -/
theorem setMismatchResult : Obligations.SetMismatchResult := by
  intro op hop a s hs hecho
  have verdict : echoVerdict a s.blk.rxBuf = ⟨.confirmationMismatch, none⟩ := if_pos hecho
  rw [exec_valid_frame (op a) hs, interpret_set op hop, verdict]
  rfl

theorem interpret_data : ∀ op ∈ [Instr.queryData, Instr.waitForData], ∀ (a : Word) (buf : Capture) (t : Time),
    (operationFor (op a)).interpret buf t = dataVerdict buf t := by
  simp [operationFor, queryDataOp, waitForDataOp]

theorem littleEndian_toNat (lo hi : Byte) : (littleEndian lo hi).toNat = lo.toNat + 256 * hi.toNat := by
  rw [littleEndian_eq_append, BitVec.toNat_append, ← Nat.shiftLeft_add_eq_or_of_lt lo.isLt, Nat.shiftLeft_eq]
  omega

theorem littleEndian_eq_ofNat (lo hi : Byte) : littleEndian lo hi = BitVec.ofNat 16 (lo.toNat + 256 * hi.toNat) := by
  rw [← littleEndian_toNat, BitVec.ofNat_toNat, BitVec.setWidth_eq]

/-- Settles O15: the two operations share `dataVerdict`. -/
theorem measurementResult : Obligations.MeasurementResult := by
  intro op hop a s hs
  rw [exec_valid_frame (op a) hs, interpret_data op hop, ← littleEndian_eq_ofNat, ← littleEndian_eq_ofNat]
  rfl

end Sys2Proof.Machine
end

section
/-! The shortest `WAIT_FOR_DATA`, 43_operations.md R200: one accept cycle, then ten of the read. -/

namespace Sys2Proof.Machine

open Sys2Proof.Safety

/-- The registers in the first cycle of the read of `WAIT_FOR_DATA`. -/
def waitStarted (b : Block) (a : Word) : Block :=
  { accepted b 8 a with fsm := .rx }

/-- `WAIT_FOR_DATA` sends no frame: its read begins in the next cycle, 42_transaction.md R155. -/
theorem step_accept_wait {a : Word} {s : State} (hi : InState s .idle) (he : s.blk.err.toNat ≤ 8)
    (hq : s.pins.req = some (encode (.waitForData a))) : step s = .next (s.advance (waitStarted s.blk a)) := by
  have ⟨hr, hf⟩ := hi
  obtain ⟨idle, -⟩ := stepRunsDecodedOperation s (.waitForData a) hr he
  rw [idle hf hq, admittedRequestStarts (.waitForData a) s hi rfl]
  rfl

/-- One cycle after its accept the operation reads, and the channel holds the frame as before. -/
theorem frameRead_waitStarted {a : Word} {s : State} {f : Capture} {rest : List Byte} (hf : s.blk.fsm = .idle)
    (he : s.blk.err.toNat ≤ 8) (hp : s.cfg.rxIdlePolicy = .hold) (hchan : s.env.chanIn = f.toList ++ rest)
    (hd : NextDrives s 11 OffersByte) :
    FrameRead (.waitForData a) f rest (s.advance (waitStarted s.blk a)) 0 (s.advance (waitStarted s.blk a)) := by
  obtain ⟨⟨-, harrive, -⟩, offers⟩ := nextDrives_head hd
  have chan : s.nextEnv.chanIn = f.toList ++ rest := by
    rw [State.nextEnv_chanIn, byteTaken_idle_hold hf hp, ← hchan]
    exact inbound_of_no_arrival harrive
  exact ⟨rfl, rfl, rfl, he, rfl, rfl, nofun, ⟨rfl, rfl, rfl, rfl⟩, chan, rfl, rfl, offers _⟩

/-- Settles O58: the accept cycle begins the read (`step_accept_wait`), which takes ten cycles (`exists_run_of_frame`);
no success in ten cycles, since a success needs ten bytes (`NoSuccessYet`). -/
theorem shortestWaitForData : Obligations.ShortestWaitForData := by
  refine ⟨?_, ?_⟩
  · intro a s f rest last hf he hw _ hp hbytes hd hsum hchan hdrives hq hlast
    obtain ⟨⟨hr, -⟩, -⟩ := nextDrives_head hdrives
    have accept := step_accept_wait ⟨hr, hf⟩ he hq
    have read := frameRead_waitStarted (a := a) hf he hp hchan hdrives
    have last9 : (s.advance (waitStarted s.blk a)).env.drives[9]? = some last := by
      rw [State.advance_env, State.nextEnv_drives, List.getElem?_tail, hlast]
    obtain ⟨t, b, hrun, hblk, hbuf, -, -, hwrites, hrest⟩ := exists_run_of_frame read hw hbytes hd hsum last9
    have kept : s.nextEnv.writes = s.env.writes := by
      rw [State.nextEnv_writes, writeBegins_of_ne_txw (by simp [hf])]
      rfl
    refine ⟨t, (runFor_next accept).trans hrun, ?_⟩
    rw [hblk, ← littleEndian_eq_append, ← littleEndian_eq_append]
    exact ⟨rfl, rfl, rfl, rfl, hbuf, hwrites.trans kept, hrest, rfl, rfl, rfl, rfl⟩
  · intro a k s t hi hq hk1 hk hrun hdone herr
    obtain ⟨k, rfl⟩ := Nat.exists_eq_add_of_le' hk1
    obtain ⟨u, hu, hrun⟩ := runFor_succ_inv hrun
    have ⟨hr, _⟩ := hi
    obtain ⟨he, -⟩ := cycle_of_step hr hu
    cases hu.symm.trans (step_accept_wait hi he hq)
    have begun : NoSuccessYet 1 (s.advance (waitStarted s.blk a)) := ⟨nofun, nofun, fun _ => Nat.one_pos⟩
    exact (begun.run (by omega) hrun).noSuccess ⟨hdone, herr⟩

end Sys2Proof.Machine
end

section
/-! The two counts of a measurement, 44_value_decoder.md R240. -/

namespace Sys2Proof.Machine

/-- Settles O50: each count is the `littleEndian` of its own two bytes, whose number is `littleEndian_toNat`. -/
theorem countsAreLittleEndian : Obligations.CountsAreLittleEndian :=
  fun b0 b1 b2 b3 => ⟨littleEndian_toNat b0 b1, littleEndian_toNat b2 b3⟩

end Sys2Proof.Machine
end

section
/-! Completion and the absence of exceptions: what `Complete` writes (60_exceptions.md R252), and why no run from a reset
stops (R255). -/

namespace Sys2Proof.Machine

/-- A verdict that is no success, or has nothing to write, only ends the operation. -/
theorem Block.complete_of_no_success (b : Block) {v : Verdict} (h : v.code ≠ .ok ∨ v.writes = none) :
    b.complete v = b.endOperation v.code := by
  rcases b.complete_cases v with ⟨w, rfl, -⟩ | hend
  · simp at h
  · exact hend

/-- Settles O32: the registers that `Complete` treats alike for every verdict have a lemma each; for the result registers
the verdict is a success with writes, or `Complete` only ends the operation. -/
theorem completeRule : Obligations.CompleteRule := by
  intro s b v
  refine ⟨b.complete_err v, b.complete_done v, b.complete_fsm v, b.complete_pulse v, fun w hw => ?_, fun h => ?_,
    b.complete_rxBuf v, b.complete_rxLen v, b.complete_op v, b.complete_arg v, b.complete_timer v, b.complete_txFrame v⟩
  · rw [hw]; exact ⟨rfl, rfl, rfl, rfl⟩
  · rw [b.complete_of_no_success h]; exact ⟨rfl, rfl, rfl, rfl⟩

end Sys2Proof.Machine

namespace Sys2Proof.Safety

open Sys2Proof.Machine

/-- Settles O53: `Invariant.step_cases` leaves only steps to a next state. -/
theorem invariantNeverStops : Obligations.InvariantNeverStops := by
  intro s hi
  rcases hi.step_cases with ⟨-, h⟩ | ⟨-, b, -, h⟩
  · exact ⟨_, h⟩
  · exact ⟨_, h⟩

/-- The registers after a reset meet the invariant in any environment and under any allowed configuration,
70_reset_and_hazards.md R283. -/
theorem Start.invariant {s : State} (h : Start s) : Invariant s := by
  obtain ⟨cfg, blk, env⟩ := s
  obtain ⟨hw, rfl⟩ := h
  exact .of_idle hw rfl (Nat.zero_le _) (Nat.zero_le _) nofun nofun

/-- A run from a state that meets the invariant reaches, whatever its length, a state that meets it under the same
configuration. -/
theorem Invariant.exists_run {s : State} (hi : Invariant s) (n : Nat) :
    ∃ t, runFor n s = .next t ∧ Invariant t ∧ t.cfg = s.cfg := by
  refine exists_run_of_steps (P := fun _ t => Invariant t ∧ t.cfg = s.cfg) ⟨hi, rfl⟩ n fun _ t _ ⟨ht, hcfg⟩ => ?_
  obtain ⟨u, hstep⟩ := invariantNeverStops t ht
  obtain ⟨-, hcfg'⟩ := step_env hstep
  exact ⟨u, hstep, stepKeepsInvariant t u ht hstep, hcfg'.trans hcfg⟩

/-- Settles O54: a reset state meets the invariant, and so every run from it goes on. -/
theorem runsFromResetNeverStop : Obligations.RunsFromResetNeverStop := fun n _ h => h.invariant.exists_run n

end Sys2Proof.Safety
end

section
/-! A reset cycle, 70_reset_and_hazards.md R280 and R281: the block takes and begins nothing in it, and so the channel keeps
what it holds and what it owes. -/

namespace Sys2Proof.Machine

theorem exec_reset (i : Instr) {s : State} (hr : s.pins.rst = true) : exec i s = .next s.resetCycle :=
  (exec_eq_operate i s).trans (operate_of_reset hr)

/-! The ports, 10_state.md R41 -/

theorem reqReady_reset (b : Block) : reqReady b true = false := Bool.and_false _

theorem txReq_reset (b : Block) : txReq b true = false := Bool.and_false _

theorem rxReady_reset (cfg : Config) (b : Block) : rxReady cfg b true = false := Bool.false_and _

theorem byteTaken_reset {s : State} (hr : s.pins.rst = true) : s.byteTaken = false := by
  rw [State.byteTaken, hr, rxReady_reset, Bool.and_false, Bool.false_and]

theorem writeBegins_reset {s : State} (hr : s.pins.rst = true) : s.writeBegins = false := by
  rw [State.writeBegins, ← State.pins_rst, hr, txReq_reset, Bool.false_and]

/-! The channel -/

theorem resetCycle_chanIn {s : State} (hr : s.pins.rst = true) : s.resetCycle.env.chanIn = s.inbound := by
  simp [byteTaken_reset hr]

theorem resetCycle_writes {s : State} (hr : s.pins.rst = true) : s.resetCycle.env.writes = s.env.writes := by
  simp [writeBegins_reset hr]

/-- Only an answer settles a write in a reset cycle, 42_transaction.md R156. -/
theorem resetCycle_owed {s : State} (hr : s.pins.rst = true) (ha : s.drive.answer = none) :
    s.resetCycle.env.owed = s.env.owed := by
  simp [State.answerable, writeBegins_reset hr, pins_tx_none ha]

/-- Settles O31: a reset cycle of any operation is the reset cycle (`exec_reset`), and no field of the channel changes in it. -/
theorem resetLeavesChannel : Obligations.ResetLeavesChannel := fun i s hr =>
  ⟨s.resetCycle, exec_reset i hr, rfl, rfl, resetCycle_chanIn hr, resetCycle_writes hr, resetCycle_owed hr⟩

/-- Settles O30: the registers are `Block.reset` after every reset cycle, the second included. -/
theorem resetCycle : Obligations.ResetCycle := by
  intro s hr
  have ready : s.outputs.reqReady = false ∧ s.outputs.txReq = false ∧ s.outputs.rxReady = false := by
    simp only [State.outputs, hr, reqReady_reset, txReq_reset, rxReady_reset, and_self]
  obtain ⟨hreq, htx, hrx⟩ := ready
  exact ⟨s.resetCycle, step_reset hr, rfl, hreq, htx, hrx, byteTaken_reset hr, writeBegins_reset hr,
    fun hr' => ⟨_, step_reset hr', rfl⟩⟩

end Sys2Proof.Machine
end
